-- ==== Sys2Proof/Config.lean ====
section
/-! DEFINITION. The implementation parameters of spec/00_scope.md R6 and R7: the fixed ones, the record of those a machine
takes as an argument, and the opaque constants that stand for the OPEN ones. -/

namespace Sys2Proof

namespace Config

/-- `MARKER` (R6), fixed. -/
def marker : Byte := 0x1B

/-- `HDR_RSV` (R6), fixed: the reserved header byte as it is transmitted. -/
def hdrRsv : Byte := 0x00

/-- `HDR_LEN` (R6), fixed: the header bytes of a packet. -/
def hdrLen : Nat := 10

end Config

/-- The parameters that the model takes as an argument (R6). They are configuration, not state (10_state.md R20): a machine
carries them along and nothing writes them (log entry 1). -/
structure Params where
  /-- `LIT_SENTINEL`: OPEN, any byte, `MARKER` included (R6, D5). -/
  litSentinel : Byte
  /-- `OP_DATA`: OPEN, in `CATALOG` (R6, D6). -/
  opData : Byte
  /-- `OP_ACK`: OPEN, in `CATALOG`, not `OP_DATA` (R6, D6). -/
  opAck : Byte
  /-- `CATALOG`: OPEN, a set of bytes (R6, D6), listed in any order. -/
  catalog : List Byte
  /-- `MAX_PACKET`: OPEN, 14 to 65545 (R6, D7). -/
  maxPacket : Nat
  /-- `SEQ_INIT`: 0x0000 in this spec (R6, D8). -/
  seqInit : Word
  /-- `ACK_ALL`: `false` in this spec (R6, D11, 90_conflicts.md C3). -/
  ackAll : Bool
  /-- `ACK_DEST`: 0x00 in this spec (R6, D10). -/
  ackDest : Byte
  /-- `DATAQ_DEPTH`: OPEN, at least 2 (R6, D39). -/
  dataqDepth : Nat
  /-- `CRQ_DEPTH`: OPEN, at least 1 (R6, D39). -/
  crqDepth : Nat
  /-- `ACKQ_DEPTH`: OPEN, at least 1 (R6, D39). -/
  ackqDepth : Nat
  /-- `TXQ_DEPTH`: OPEN, at least 1 (R6, D39). -/
  txqDepth : Nat
  deriving DecidableEq, Repr

/-- `MAX_PAYLOAD = MAX_PACKET - 10` (R6, R7). -/
def Params.maxPayload (p : Params) : Nat := p.maxPacket - Config.hdrLen

/-- The constraint column of R6, with R7. -/
def Params.valid (p : Params) : Prop :=
  p.opAck ≠ p.opData ∧ p.opData ∈ p.catalog ∧ p.opAck ∈ p.catalog ∧
  14 ≤ p.maxPacket ∧ p.maxPacket ≤ 65545 ∧ p.seqInit.toNat ≤ 0xFFFE ∧
  2 ≤ p.dataqDepth ∧ 1 ≤ p.crqDepth ∧ 1 ≤ p.ackqDepth ∧ 1 ≤ p.txqDepth

namespace Config

/-- Stands for `LIT_SENTINEL`: the spec gives no value (D5). -/
opaque freeLitSentinel : Byte

/-- Stands for `OP_DATA`: the spec gives no value (D6). -/
opaque freeOpData : Byte

/-- How far above `OP_DATA + 1` the value of `OP_ACK` lies, modulo 256: every byte but `OP_DATA` itself is reached (D6). -/
opaque freeOpAckOffset : Fin 255

/-- Stands for the members of `CATALOG` besides `OP_DATA` and `OP_ACK`: the spec gives none (D6). -/
opaque freeCatalog : List Byte

/-- How far above 14 `MAX_PACKET` lies: every value of 14 to 65545 is reached (D7). -/
opaque freeMaxPacket : Fin 65532

/-- How far above its least value 2 `DATAQ_DEPTH` lies (D39). -/
opaque freeDataqDepth : Nat

/-- How far above its least value 1 `CRQ_DEPTH` lies (D39). -/
opaque freeCrqDepth : Nat

/-- How far above its least value 1 `ACKQ_DEPTH` lies (D39). -/
opaque freeAckqDepth : Nat

/-- How far above its least value 1 `TXQ_DEPTH` lies (D39). -/
opaque freeTxqDepth : Nat

/-- Stands for what S14 OUTSTANDING, which has 16 bits, shows when the count is this one and does not fit in 16 bits: the spec
states no value there (10_state.md R39, log entry 10). -/
opaque freeOutstanding : Nat → Word

/-- The parameters of the machine after reset: the values R6 gives, and the free ones shaped to the constraints of R6 and R7.
Every legal choice of the OPEN parameters is one choice of the free ones, up to the order in which `CATALOG` is listed. -/
def params : Params where
  litSentinel := freeLitSentinel
  opData := freeOpData
  opAck := freeOpData + 1 + BitVec.ofNat 8 freeOpAckOffset.val
  catalog := freeOpData :: (freeOpData + 1 + BitVec.ofNat 8 freeOpAckOffset.val) :: freeCatalog
  maxPacket := freeMaxPacket.val + 14
  seqInit := 0x0000
  ackAll := false
  ackDest := 0x00
  dataqDepth := freeDataqDepth + 2
  crqDepth := freeCrqDepth + 1
  ackqDepth := freeAckqDepth + 1
  txqDepth := freeTxqDepth + 1

end Config

end Sys2Proof
end

