-- ==== Sys2Proof/Syntax.lean ====
section
/-! DEFINITION. The rows of spec/opcode_table.json as one inductive, and the codes and selecting conditions of those rows
(spec/30_encoding.md, 40_decoder.md R120, 41_destuff.md R160). -/

namespace Sys2Proof

/-- The frame decoder's states ReadingHeader, ReadingParameters and ReadingData (10_state.md R23). -/
inductive Fsm where
  | rh | rp | rd
  deriving DecidableEq, Repr

/-- The de-stuffer's states Normal, SawOneMarker and SawTwoMarkers (10_state.md R29). -/
inductive Ds where
  | normal | saw1 | saw2
  deriving DecidableEq, Repr

/-- An item of `rx_in` (30_encoding.md R92): one received byte, or the peer's close. -/
inductive RxItem where
  | byte (b : Byte)
  | eof
  deriving DecidableEq, Repr

/-- A command as it stands on `cmd_in`: the command word, and the payload list that a SEND carries (30_encoding.md R91). -/
structure HostCommand where
  word : BitVec 32
  payload : List Byte
  deriving DecidableEq, Repr

/-- Which way a wire packet goes: out through `tx_out`, or in through `rx_in`. -/
inductive Dir where
  | sent | received
  deriving DecidableEq, Repr

/-- One constructor per row of spec/opcode_table.json, in the table's order. -/
inductive Instr where
  /-- RXI_BYTE: the RX engine's step on a byte item (R120). -/
  | rxiByte (b : Byte)
  /-- RXI_EOF: the RX engine's step on an end-of-stream item (R137). -/
  | rxiEof
  /-- RH_MARK: a marker before the third, in ReadingHeader (R122). -/
  | rhMark
  /-- RH_MARK3: the third consecutive marker (R123). -/
  | rhMark3
  /-- RH_OTHER: a byte other than the marker, in ReadingHeader (R124). -/
  | rhOther (b : Byte)
  /-- RP_BYTE: parameter bytes 1 to 6 (R125). -/
  | rpByte (b : Byte)
  /-- RP_LAST: the seventh parameter byte (R126, then R127 or R128). -/
  | rpLast (b : Byte)
  /-- PKT_EMPTY: the seventh parameter byte of a packet of length 0 (R126, R127). -/
  | pktEmpty (b : Byte)
  /-- RD_DATA: a payload byte of a data packet (R131). -/
  | rdData (b : Byte)
  /-- RD_CTRL: a payload byte of a control packet (R132). -/
  | rdCtrl (b : Byte)
  /-- DS_N_MARK: a marker in Normal (R161). -/
  | dsNMark
  /-- DS_N_OTHER: any other byte in Normal (R162). -/
  | dsNOther (b : Byte)
  /-- DS_1_MARK: a marker in SawOneMarker (R163). -/
  | ds1Mark
  /-- DS_1_OTHER: any other byte in SawOneMarker (R164). -/
  | ds1Other (b : Byte)
  /-- DS_2_SENT: the literal sentinel in SawTwoMarkers (R165). -/
  | ds2Sent (b : Byte)
  /-- DS_2_OTHER: any other byte in SawTwoMarkers, a status insertion (R166). -/
  | ds2Other (b : Byte)
  /-- PKT_DATA: a packet whose opcode is `OP_DATA` (R80, R181). -/
  | pktData (dir : Dir) (rsv : Byte) (seq : Word) (dest : Byte) (body : List Byte)
  /-- PKT_CTRL: a packet whose opcode is not `OP_DATA` (R80, R181). -/
  | pktCtrl (dir : Dir) (rsv : Byte) (seq : Word) (op : Byte) (dest : Byte) (body : List Byte)
  /-- PKT_ACK: the ACK packet for a packet of sequence number `rseq` and length `rlen` (R86, R225). -/
  | pktAck (dir : Dir) (seq : Word) (rseq : Word) (rlen : Word)
  /-- TX_STEP: one step of the TX engine (R180). -/
  | txStep
  /-- CMD_SEND (R240, R241). -/
  | cmdSend (op : Byte) (dest : Byte) (payload : List Byte)
  /-- CMD_STOP_RX (R242). -/
  | cmdStopRx
  /-- CMD_SET_MAX_OUT (R243). -/
  | cmdSetMaxOut (v : Word)
  /-- CMD_CLEAR_ANOM (R244). -/
  | cmdClearAnom (mask : Byte)
  /-- CMD_POP_DATA (R245). -/
  | cmdPopData
  /-- CMD_POP_CTRL (R246). -/
  | cmdPopCtrl
  /-- CMD_READ_STATUS (R247). -/
  | cmdReadStatus
  /-- CMD_RESERVED: command kind 7 (R248). -/
  | cmdReserved
  /-- LINK_ERR: the transport's error input (R283). -/
  | linkErr
  /-- RESET: the host's reset input (R310). -/
  | reset
  deriving DecidableEq, Repr

/-- The code of a row, as the table lays it out: a 9-bit `rx_in` item (R92), a received byte (R120, R160), the bytes of a wire
packet (R80), a command word with its payload list (R91), or an event without code. -/
inductive Code where
  | item (w : BitVec 9)
  | byte (b : Byte)
  | packet (bytes : List Byte)
  | command (w : BitVec 32) (payload : List Byte)
  | event
  deriving DecidableEq, Repr

/-- What of the RX state selects the row of a received byte: the columns `fsm` and `condition` of R120's table, the length byte
that R127 looks at, and the column `ds` of R160's table. -/
structure RxView where
  fsm : Fsm
  matchCount : Fin 3
  pcount : Fin 7
  /-- `pbuf[5]`, the high byte of the length (R80). -/
  lenHigh : Byte
  hdrOp : Byte
  ds : Ds
  deriving DecidableEq, Repr

/-- The place a code is read from. One byte value has several rows, so the code alone does not name the row
(log entry 5). -/
inductive Source where
  /-- The head of `rx_in`. -/
  | rxPort
  /-- A received byte, as a row of the frame decoder (R120). -/
  | frame (v : RxView)
  /-- A received byte, as the row that the frame decoder's row comes to: PKT_EMPTY (R127) or a row of the de-stuffer (R160). -/
  | outcome (v : RxView)
  /-- The wire. -/
  | wire (d : Dir)
  /-- The head of `cmd_in`. -/
  | cmdPort
  /-- The TX engine moves. -/
  | txTurn
  /-- The input `LINK_ERR`. -/
  | linkErrPin
  /-- The input `RESET`. -/
  | resetPin
  deriving DecidableEq, Repr

end Sys2Proof
end

