-- ==== Sys2Proof/WellFormed.lean ====
section
/-! DEFINITION. Which operands a row's code admits, by the columns of spec/opcode_table.json and spec/30_encoding.md. A row's
meaning does not depend on it: it says for which terms the encoder's words read back. -/

namespace Sys2Proof

/-- A body whose length the 16-bit length field can hold (30_encoding.md R83). -/
def bodyFits (body : List Byte) : Bool := decide (body.length ≤ 65535)

/-- What the TX engine sends (42_encoder.md R181, R182, R186): the reserved byte 0x00, a sequence number up to 0xFFFE, and a
body of at most `MAX_PAYLOAD` bytes. Nothing is asked of a received packet. -/
def sendable (p : Params) (dir : Dir) (rsv : Byte) (seq : Word) (len : Nat) : Bool :=
  match dir with
  | .sent => decide (rsv = Config.hdrRsv) && decide (seq.toNat ≤ 0xFFFE) && decide (len ≤ p.maxPayload)
  | .received => true

/-- The packet has the layout of an ACK packet (30_encoding.md R86, row PKT_ACK). -/
def ackShaped (p : Params) (rsv op dest : Byte) (body : List Byte) : Bool :=
  decide (op = p.opAck) && decide (rsv = Config.hdrRsv) && decide (dest = p.ackDest) && decide (body.length = 4)

/-- The operands are ones the row's code admits. -/
def Instr.wf (p : Params) : Instr → Bool
  | .rxiByte _ => true
  | .rxiEof => true
  | .rhMark => true
  | .rhMark3 => true
  | .rhOther b => decide (b ≠ Config.marker)
  | .rpByte _ => true
  | .rpLast _ => true
  | .pktEmpty b => decide (b = 0)
  | .rdData _ => true
  | .rdCtrl _ => true
  | .dsNMark => true
  | .dsNOther b => decide (b ≠ Config.marker)
  | .ds1Mark => true
  | .ds1Other b => decide (b ≠ Config.marker)
  | .ds2Sent b => decide (b = p.litSentinel)
  | .ds2Other b => decide (b ≠ p.litSentinel)
  | .pktData dir rsv seq _ body => bodyFits body && sendable p dir rsv seq body.length
  | .pktCtrl dir rsv seq op dest body =>
      bodyFits body && sendable p dir rsv seq body.length && decide (op ≠ p.opData) && !ackShaped p rsv op dest body
  | .pktAck dir seq _ _ => sendable p dir Config.hdrRsv seq 4
  | .txStep => true
  | .cmdSend _ _ _ => true
  | .cmdStopRx => true
  | .cmdSetMaxOut _ => true
  | .cmdClearAnom _ => true
  | .cmdPopData => true
  | .cmdPopCtrl => true
  | .cmdReadStatus => true
  | .cmdReserved => true
  | .linkErr => true
  | .reset => true

end Sys2Proof
end

