-- ==== Sys2Proof/Decode.lean ====
section
/-! DEFINITION. Decoding and encoding of every row of spec/opcode_table.json (spec/30_encoding.md, 40_decoder.md R120,
41_destuff.md R160, 42_encoder.md R181), and the byte-order helpers of 00_scope.md R8. -/

namespace Sys2Proof

/-! ### Byte order -/

/-- `hi8(v) = v[15:8]` (R8). -/
def hi8 (v : Word) : Byte := v.extractLsb' 8 8

/-- `lo8(v) = v[7:0]` (R8). -/
def lo8 (v : Word) : Byte := v.extractLsb' 0 8

/-- `be16(a, b) = a * 256 + b`, most significant byte first (R8, 20_memory.md R62). -/
def be16 (a b : Byte) : Word := BitVec.ofNat 16 (a.toNat * 256 + b.toNat)

/-! ### Wire packets -/

/-- The bytes of a packet, in the layout of R80. The length field counts the body as it stands on the wire (R83). -/
def wireBytes (rsv : Byte) (seq : Word) (op dest : Byte) (body : List Byte) : List Byte :=
  [Config.marker, Config.marker, Config.marker, rsv, hi8 seq, lo8 seq, op, dest,
    hi8 (BitVec.ofNat 16 body.length), lo8 (BitVec.ofNat 16 body.length)] ++ body

/-- `packet(seq, op, dest, body)` of R181, what the TX engine puts on the wire. -/
def packet (seq : Word) (op dest : Byte) (body : List Byte) : List Byte :=
  wireBytes Config.hdrRsv seq op dest body

/-- The payload of an ACK packet (R86). -/
def ackBody (rseq rlen : Word) : List Byte := [hi8 rseq, lo8 rseq, hi8 rlen, lo8 rlen]

/-- Why a code is refused. -/
inductive DecodeError where
  /-- Fewer than the ten header bytes of R80. -/
  | shortHeader
  /-- The first three bytes are not all `MARKER` (R80). -/
  | noMarkers
  /-- The bytes after the header are not as many as the length field says (R83). -/
  | lengthMismatch
  /-- The code is not of the kind that the place carries (R96). -/
  | wrongPort
  deriving DecidableEq, Repr

/-- The row of a packet, by its opcode (R84): PKT_DATA, PKT_ACK where the packet has the layout of R86, PKT_CTRL else. -/
def packetRow (p : Params) (dir : Dir) (rsv : Byte) (seq : Word) (op dest : Byte) (body : List Byte) : Instr :=
  if op = p.opData then .pktData dir rsv seq dest body
  else if op = p.opAck ∧ rsv = Config.hdrRsv ∧ dest = p.ackDest then
    match body with
    | [q1, q0, n1, n0] => .pktAck dir seq (be16 q1 q0) (be16 n1 n0)
    | _ => .pktCtrl dir rsv seq op dest body
  else .pktCtrl dir rsv seq op dest body

/-- Reads one whole packet (R80, R82, R83). -/
def decodePacket (p : Params) (dir : Dir) (bytes : List Byte) : Except DecodeError Instr :=
  match bytes with
  | m0 :: m1 :: m2 :: rsv :: s1 :: s0 :: op :: dest :: l1 :: l0 :: body =>
    if ¬(m0 = Config.marker ∧ m1 = Config.marker ∧ m2 = Config.marker) then .error .noMarkers
    else if body.length ≠ (be16 l1 l0).toNat then .error .lengthMismatch
    else .ok (packetRow p dir rsv (be16 s1 s0) op dest body)
  | _ => .error .shortHeader

/-! ### `rx_in` items and the rows of a received byte -/

/-- The 9-bit code of an item: the kind in bit 8, the byte in bits 7:0 (R92). -/
def RxItem.code : RxItem → BitVec 9
  | .byte b => 0#1 ++ b
  | .eof => 1#1 ++ 0#8

/-- An item by its kind bit (R92). The low bits of an `EOF` are no operand. -/
def decodeItem (w : BitVec 9) : Instr :=
  if w.extractLsb' 8 1 = 0#1 then .rxiByte (w.extractLsb' 0 8) else .rxiEof

/-- The item that a 9-bit code stands for (R92). -/
def itemOfCode (w : BitVec 9) : RxItem :=
  if w.extractLsb' 8 1 = 0#1 then .byte (w.extractLsb' 0 8) else .eof

/-- The frame decoder's row of a received byte: R120's table. -/
def decodeFrameRow (p : Params) (v : RxView) (b : Byte) : Instr :=
  match v.fsm with
  | .rh => if b = Config.marker then (if v.matchCount.val < 2 then .rhMark else .rhMark3) else .rhOther b
  | .rp => if v.pcount.val < 6 then .rpByte b else .rpLast b
  | .rd => if v.hdrOp = p.opData then .rdData b else .rdCtrl b

/-- The de-stuffer's row: R160's table. In SAW2 the sentinel is tested first. -/
def decodeDestuffRow (p : Params) (ds : Ds) (b : Byte) : Instr :=
  match ds with
  | .normal => if b = Config.marker then .dsNMark else .dsNOther b
  | .saw1 => if b = Config.marker then .ds1Mark else .ds1Other b
  | .saw2 => if b = p.litSentinel then .ds2Sent b else .ds2Other b

/-- What the frame decoder's row comes to: for RD_DATA the de-stuffer's row (R131), for RP_LAST with length 0 PKT_EMPTY
(R127), else the row itself. -/
def decodeOutcomeRow (p : Params) (v : RxView) (b : Byte) : Instr :=
  match decodeFrameRow p v b with
  | .rdData c => decodeDestuffRow p v.ds c
  | .rpLast c => if be16 v.lenHigh c = 0 then .pktEmpty c else .rpLast c
  | i => i

/-! ### Command words -/

/-- A command word by its kind, bits [2:0] (R91). The bits a command does not use are ignored. -/
def decodeCommand (w : BitVec 32) (payload : List Byte) : Instr :=
  match (w.extractLsb' 0 3).toNat with
  | 0 => .cmdSend (w.extractLsb' 8 8) (w.extractLsb' 16 8) payload
  | 1 => .cmdStopRx
  | 2 => .cmdSetMaxOut (w.extractLsb' 16 16)
  | 3 => .cmdClearAnom (w.extractLsb' 8 8)
  | 4 => .cmdPopData
  | 5 => .cmdPopCtrl
  | 6 => .cmdReadStatus
  | _ => .cmdReserved

/-- A command word from its fields (R91): bits [31:16], bits [15:8], zeros in the ignored bits [7:3], the kind in [2:0]. -/
def commandWord (kind : BitVec 3) (low : Byte) (high : Word) : BitVec 32 := high ++ low ++ 0#5 ++ kind

/-! ### The decoder and the encoder -/

/-- Reads a code at the place it stands. Total: a code that the place does not carry, or bytes that are no packet, are refused
by name. -/
def decode (p : Params) (src : Source) (code : Code) : Except DecodeError Instr :=
  match src, code with
  | .rxPort, .item w => .ok (decodeItem w)
  | .frame v, .byte b => .ok (decodeFrameRow p v b)
  | .outcome v, .byte b => .ok (decodeOutcomeRow p v b)
  | .wire d, .packet bytes => decodePacket p d bytes
  | .cmdPort, .command w payload => .ok (decodeCommand w payload)
  | .txTurn, .event => .ok .txStep
  | .linkErrPin, .event => .ok .linkErr
  | .resetPin, .event => .ok .reset
  | _, _ => .error .wrongPort

/-- The code of a row. -/
def encode (p : Params) : Instr → Code
  | .rxiByte b => .item (RxItem.byte b).code
  | .rxiEof => .item RxItem.eof.code
  | .rhMark => .byte Config.marker
  | .rhMark3 => .byte Config.marker
  | .rhOther b => .byte b
  | .rpByte b => .byte b
  | .rpLast b => .byte b
  | .pktEmpty b => .byte b
  | .rdData b => .byte b
  | .rdCtrl b => .byte b
  | .dsNMark => .byte Config.marker
  | .dsNOther b => .byte b
  | .ds1Mark => .byte Config.marker
  | .ds1Other b => .byte b
  | .ds2Sent b => .byte b
  | .ds2Other b => .byte b
  | .pktData _ rsv seq dest body => .packet (wireBytes rsv seq p.opData dest body)
  | .pktCtrl _ rsv seq op dest body => .packet (wireBytes rsv seq op dest body)
  | .pktAck _ seq rseq rlen => .packet (wireBytes Config.hdrRsv seq p.opAck p.ackDest (ackBody rseq rlen))
  | .txStep => .event
  | .cmdSend op dest payload => .command (commandWord 0 op (0#8 ++ dest)) payload
  | .cmdStopRx => .command (commandWord 1 0 0) []
  | .cmdSetMaxOut v => .command (commandWord 2 0 v) []
  | .cmdClearAnom mask => .command (commandWord 3 mask 0) []
  | .cmdPopData => .command (commandWord 4 0 0) []
  | .cmdPopCtrl => .command (commandWord 5 0 0) []
  | .cmdReadStatus => .command (commandWord 6 0 0) []
  | .cmdReserved => .command (commandWord 7 0 0) []
  | .linkErr => .event
  | .reset => .event

/-- The view of a receiver that has just been reset (10_state.md R43). -/
def resetView : RxView := { fsm := .rh, matchCount := 0, pcount := 0, lenHigh := 0, hdrOp := 0, ds := .normal }

/-- A place where the row's code is read as that row: for a row that the RX state selects, one state of the column
`source_fields.state` of the table. -/
def Instr.source (p : Params) : Instr → Source
  | .rxiByte _ => .rxPort
  | .rxiEof => .rxPort
  | .rhMark => .frame resetView
  | .rhMark3 => .frame { resetView with matchCount := 2 }
  | .rhOther _ => .frame resetView
  | .rpByte _ => .frame { resetView with fsm := .rp }
  | .rpLast _ => .frame { resetView with fsm := .rp, pcount := 6 }
  | .pktEmpty _ => .outcome { resetView with fsm := .rp, pcount := 6 }
  | .rdData _ => .frame { resetView with fsm := .rd, hdrOp := p.opData }
  | .rdCtrl _ => .frame { resetView with fsm := .rd, hdrOp := p.opData + 1 }
  | .dsNMark => .outcome { resetView with fsm := .rd, hdrOp := p.opData }
  | .dsNOther _ => .outcome { resetView with fsm := .rd, hdrOp := p.opData }
  | .ds1Mark => .outcome { resetView with fsm := .rd, hdrOp := p.opData, ds := .saw1 }
  | .ds1Other _ => .outcome { resetView with fsm := .rd, hdrOp := p.opData, ds := .saw1 }
  | .ds2Sent _ => .outcome { resetView with fsm := .rd, hdrOp := p.opData, ds := .saw2 }
  | .ds2Other _ => .outcome { resetView with fsm := .rd, hdrOp := p.opData, ds := .saw2 }
  | .pktData dir _ _ _ _ => .wire dir
  | .pktCtrl dir _ _ _ _ _ => .wire dir
  | .pktAck dir _ _ _ => .wire dir
  | .txStep => .txTurn
  | .cmdSend _ _ _ => .cmdPort
  | .cmdStopRx => .cmdPort
  | .cmdSetMaxOut _ => .cmdPort
  | .cmdClearAnom _ => .cmdPort
  | .cmdPopData => .cmdPort
  | .cmdPopCtrl => .cmdPort
  | .cmdReadStatus => .cmdPort
  | .cmdReserved => .cmdPort
  | .linkErr => .linkErrPin
  | .reset => .resetPin

/-! ### Words numbered as spec/opcode_table.json numbers them -/

/-- The first `n` bytes of `w`, the byte of bits 7..0 first. -/
def tableBytes (n w : Nat) : List Byte := (List.range n).map fun k => BitVec.ofNat 8 (w >>> (8 * k))

/-- The bytes of a packet whose first bytes are the table's word and whose further bytes, up to the length the header states,
are zeros. -/
def tablePacket (nbits w : Nat) : List Byte :=
  let given := tableBytes (nbits / 8) w
  let header := given.take 10
  let len := (be16 (header.getD 8 0) (header.getD 9 0)).toNat
  header ++ given.drop 10 ++ List.replicate (len - (given.drop 10).length) 0

/-- Where a word of `nbits` bits is read, and its code: an `rx_in` item (9 bits, so two bytes), a command word (32 bits), a
packet arriving on the wire (80 bits or more). The table fixes 8 bits or fewer in two kinds of rows: the command rows, which fix
bits 2:0 alone, so that a word below 8 is a command word whose further bits are zero, and the rows of a marker byte; every other
8-bit word is a received byte, as a receiver just out of reset sees it. A row without bits has no word (log entry 5). -/
def tableCode (nbits w : Nat) : Option (Source × Code) :=
  if nbits = 8 then
    (if w < 8 then some (.cmdPort, .command (BitVec.ofNat 32 w) []) else some (.frame resetView, .byte (BitVec.ofNat 8 w)))
  else if nbits = 16 then (if w < 512 then some (.rxPort, .item (BitVec.ofNat 9 w)) else none)
  else if nbits = 32 then some (.cmdPort, .command (BitVec.ofNat 32 w) [])
  else if 80 ≤ nbits then some (.wire .received, .packet (tablePacket nbits w))
  else none

/-- The instruction the decoder reads from a table word. -/
def decodeTableWord (nbits w : Nat) : Option Instr :=
  match tableCode nbits w with
  | some (src, code) => (decode Config.params src code).toOption
  | none => none

end Sys2Proof
end

