-- ==== Sys2Proof/Machine/State.lean ====
section
/-! DEFINITION. The state of the block (spec/10_state.md R20 to R38), its ports (30_encoding.md R96), the reasons a step could
stop, and the state after reset (10_state.md R43, 70_reset_and_hazards.md R310). -/

namespace Sys2Proof.Machine

/-- Raised by nothing: the block has no exceptions and no traps, and no behaviour of it is a fault (60_exceptions.md R280,
93_implementation_defined.md). Safe: no step of the model ends here. -/
inductive Fault where
  deriving DecidableEq, Repr

/-- Why an instruction is refused. -/
inductive Refusal where
  /-- Raised by `exec`'s arm of an instruction that has no meaning yet. Safe: the model stops. Every row of the table has its
  meaning, so no arm raises it. -/
  | notModelled (mnemonic : String)
  deriving DecidableEq, Repr

/-! ### Records held in queues -/

/-- A host SEND not yet started (10_state.md R32). -/
structure SendCmd where
  op : Byte
  dest : Byte
  payload : List Byte
  deriving DecidableEq, Repr

/-- A non-empty list of packet bodies (10_state.md R32). -/
structure Chunks where
  first : List Byte
  rest : List (List Byte)
  deriving DecidableEq, Repr

/-- The SEND in progress, with its packet bodies not yet emitted (10_state.md R32). -/
structure Current where
  op : Byte
  dest : Byte
  chunks : Chunks
  deriving DecidableEq, Repr

/-- An ACK request: sequence number and wire length of a received packet (10_state.md R33). -/
structure AckReq where
  seq : Word
  len : Word
  deriving DecidableEq, Repr

/-- A control-response record (10_state.md R36). -/
structure CtrlRec where
  seq : Word
  op : Byte
  dest : Byte
  payload : List Byte
  deriving DecidableEq, Repr

/-! ### The command port's response (44_host_ops.md R249) -/

/-- The 2-bit status code of a response (R249). -/
inductive RspCode where
  | ok | notOpen | empty | badCmd
  deriving DecidableEq, Repr

/-- The status vector S0 to S22 (10_state.md R39), with the widths of its table. The levels S15 to S17, each as wide as its queue
depth needs, are exact counts (log entry 10). -/
structure StatusVector where
  fsm : BitVec 2
  matchCount : BitVec 2
  pcount : BitVec 3
  ds : BitVec 2
  dcount : Word
  hdrRsv : Byte
  hdrSeq : Word
  hdrOp : Byte
  hdrDest : Byte
  hdrLen : Word
  lastOp : Byte
  lastOpValid : Bool
  txSeq : Word
  maxOut : Word
  outstanding : Word
  dataLevel : Nat
  ctrlLevel : Nat
  txqLevel : Nat
  txBusy : Bool
  rxLive : Bool
  txLive : Bool
  anom : Byte
  irq : Bool
  deriving DecidableEq, Repr

/-- The value that comes with a status code (R245, R246, R247), where one does. -/
inductive RspValue where
  | none
  | byte (b : Byte)
  | record (r : CtrlRec)
  | status (v : StatusVector)
  deriving DecidableEq, Repr

/-- The response to one command (R249). -/
structure Response where
  code : RspCode
  value : RspValue
  deriving DecidableEq, Repr

/-! ### Whose move it is -/

/-- One entry of the agenda: which agent moves, or which input arrives (20_memory.md R65, 30_encoding.md R96; log entry 2). -/
inductive Turn where
  /-- The transport appends the items of one read to `rx_in` (R38, R92). -/
  | deliver (items : List RxItem)
  /-- The host puts its next command on `cmd_in` (R91, R249). -/
  | issue (c : HostCommand)
  /-- The RX engine takes a step, if it has one (R120). -/
  | rxEngine
  /-- The TX engine takes a step, if it has one (R180). -/
  | txEngine
  /-- The command at the head of `cmd_in` is performed, if it is enabled (R249). -/
  | host
  /-- The transport raises `LINK_ERR` (R283). -/
  | linkErr
  /-- The host asserts `RESET` (R310). -/
  | reset
  /-- The script line `RX hh hh ...`, performed to completion (30_encoding.md R94; log entry 6). -/
  | rxLine (bytes : List Byte)
  deriving DecidableEq, Repr

/-- The machine. `params` and `agenda` are the model's own (log entries 1 and 2); every other field is the spec's, named after
the rule that gives it. -/
@[ext]
structure State where
  /-- The implementation parameters (00_scope.md R6), which nothing writes. -/
  params : Params
  /-- R21: the reader flow runs. -/
  rxLive : Bool
  /-- R22: the writer path may send. -/
  txLive : Bool
  /-- R23: the frame decoder's state. -/
  fsm : Fsm
  /-- R24, `match`: marker bytes matched so far in RH, 0 to 2. -/
  matchCount : Fin 3
  /-- R25: parameter bytes received so far in RP, 0 to 6. -/
  pcount : Fin 7
  /-- R25: the parameter bytes at index 0 to 5. -/
  pbuf : Vector Byte 6
  /-- R26: the reserved byte of the last parameter block. -/
  hdrRsv : Byte
  /-- R26: its sequence number. -/
  hdrSeq : Word
  /-- R26: its opcode. -/
  hdrOp : Byte
  /-- R26: its destination. -/
  hdrDest : Byte
  /-- R26: its payload length. -/
  hdrLen : Word
  /-- R27: payload bytes consumed so far in RD. -/
  dcount : Word
  /-- R28: payload bytes of the control packet in flight. -/
  acc : List Byte
  /-- R29: the de-stuffer's state. -/
  ds : Ds
  /-- R30: the opcode of the last completed packet. -/
  lastOp : Byte
  /-- R30: a packet has completed. -/
  lastOpValid : Bool
  /-- R31: the sequence number the next emitted packet will carry. -/
  txSeq : Word
  /-- R32: SEND commands not yet started, oldest first. -/
  txq : List SendCmd
  /-- R32: the SEND in progress. -/
  cur : Option Current
  /-- R33: ACK requests, oldest first. -/
  ackq : List AckReq
  /-- R34: the negotiated bound on outstanding packets; 0 means none. -/
  maxOut : Word
  /-- R35: the inbound byte queue, oldest first. -/
  dataOut : List Byte
  /-- R36: control-response records, oldest first. -/
  crq : List CtrlRec
  /-- R37: the sticky anomaly bits. -/
  anom : Byte
  /-- R38: the transport's input queue, oldest first. -/
  rxIn : List RxItem
  /-- R38: the log of the bytes written to the wire, oldest first. -/
  txOut : List Byte
  /-- R96, `cmd_in`: commands issued and not yet performed, oldest first. -/
  cmdIn : List HostCommand
  /-- R96, the responses of `cmd_in`, oldest first (R249). -/
  rspOut : List Response
  /-- The turns still to come. -/
  agenda : List Turn
  deriving DecidableEq, Repr

/-- The machine right after reset: every field at the value of R43, `rx_in` empty (R310), and nothing written, issued,
answered or arriving yet (log entries 2 and 3). -/
def State.reset : State where
  params := Config.params
  rxLive := true
  txLive := true
  fsm := .rh
  matchCount := 0
  pcount := 0
  pbuf := Vector.replicate 6 0x00
  hdrRsv := 0
  hdrSeq := 0
  hdrOp := 0
  hdrDest := 0
  hdrLen := 0
  dcount := 0
  acc := []
  ds := .normal
  lastOp := 0x00
  lastOpValid := false
  txSeq := Config.params.seqInit
  txq := []
  cur := none
  ackq := []
  maxOut := 0
  dataOut := []
  crq := []
  anom := 0x00
  rxIn := []
  txOut := []
  cmdIn := []
  rspOut := []
  agenda := []

end Sys2Proof.Machine
end

