-- ==== Sys2Proof/Machine/Flags.lean ====
section
/-! DEFINITION. The anomaly bits and the interrupt output (spec/60_exceptions.md R281, R282). They are the block's only flags
(10_state.md R41). -/

namespace Sys2Proof.Machine

/-- The anomalies of R281. -/
inductive Anomaly where
  | opc | outs | notOpen | badCmd | eof | link
  deriving DecidableEq, Repr

/-- The bit of `anom` that stands for an anomaly (R281). -/
def Anomaly.bit : Anomaly → Nat
  | .opc => 0
  | .outs => 1
  | .notOpen => 2
  | .badCmd => 3
  | .eof => 4
  | .link => 5

/-- The byte with only that bit set. -/
def Anomaly.mask (a : Anomaly) : Byte := 1#8 <<< a.bit

/-- `Flag(X)` (00_scope.md R10): sets the sticky bit of X. -/
def State.flag (s : State) (a : Anomaly) : State := { s with anom := s.anom ||| a.mask }

/-- `Flag(X)` under a condition. -/
def State.flagIf (s : State) (c : Bool) (a : Anomaly) : State := if c then s.flag a else s

/-- The level interrupt output, `anom != 0` (R282). -/
def State.irq (s : State) : Bool := s.anom != 0

end Sys2Proof.Machine
end

