-- ==== Sys2Proof/Machine/Operands.lean ====
section
/-! DEFINITION. Reading the state: the room in a queue (spec/00_scope.md R9), what selects a receiver's row (40_decoder.md
R120), the status vector and its codes (10_state.md R39), and the response codes (44_host_ops.md R249). -/

namespace Sys2Proof.Machine

/-- `Room(q) = DEPTH(q) - |q|` (R9). -/
def room {α : Type} (depth : Nat) (q : List α) : Nat := depth - q.length

/-- `need ≤ avail`, by recursion on `need`, so that a step with nothing to push does not look at a depth, which may be an
opaque parameter. -/
def fits : Nat → Nat → Bool
  | 0, _ => true
  | _ + 1, 0 => false
  | n + 1, a + 1 => fits n a

/-- What of the state selects the row of a received byte. -/
def State.view (s : State) : RxView where
  fsm := s.fsm
  matchCount := s.matchCount
  pcount := s.pcount
  lenHigh := s.pbuf[5]
  hdrOp := s.hdrOp
  ds := s.ds

/-- The code of `fsm` in the status view (R23). -/
def fsmCode : Fsm → BitVec 2
  | .rh => 0
  | .rp => 1
  | .rd => 2

/-- The code of `ds` in the status view (R29). -/
def dsCode : Ds → BitVec 2
  | .normal => 0
  | .saw1 => 1
  | .saw2 => 2

/-- The outstanding-ACK counter, `|ackq|` (43_ack_tracker.md R222). -/
def State.outstanding (s : State) : Nat := s.ackq.length

/-- S14 OUTSTANDING, 16 bits: the count, where 16 bits hold it (R39). `ACKQ_DEPTH` has no upper bound, and the spec states no
value for a larger count: there it is free (log entry 10). -/
def outstandingField (n : Nat) : Word := if n ≤ 65535 then BitVec.ofNat 16 n else Config.freeOutstanding n

/-- The status vector S0 to S22 (R39). -/
def State.status (s : State) : StatusVector where
  fsm := fsmCode s.fsm
  matchCount := BitVec.ofNat 2 s.matchCount.val
  pcount := BitVec.ofNat 3 s.pcount.val
  ds := dsCode s.ds
  dcount := s.dcount
  hdrRsv := s.hdrRsv
  hdrSeq := s.hdrSeq
  hdrOp := s.hdrOp
  hdrDest := s.hdrDest
  hdrLen := s.hdrLen
  lastOp := s.lastOp
  lastOpValid := s.lastOpValid
  txSeq := s.txSeq
  maxOut := s.maxOut
  outstanding := outstandingField s.outstanding
  dataLevel := s.dataOut.length
  ctrlLevel := s.crq.length
  txqLevel := s.txq.length
  txBusy := s.cur.isSome
  rxLive := s.rxLive
  txLive := s.txLive
  anom := s.anom
  irq := s.irq

/-- The 2-bit status code of a response (R249). -/
def rspCodeBits : RspCode → BitVec 2
  | .ok => 0
  | .notOpen => 1
  | .empty => 2
  | .badCmd => 3

end Sys2Proof.Machine
end

