-- ==== Sys2Proof/Machine/Ops.lean ====
section
/-! DEFINITION. The operations that several rows share: an RX engine step (spec/40_decoder.md R120), the completion of a packet
(R133 to R136, 43_ack_tracker.md R220, R221), the emission of a packet (42_encoder.md R181, R182), the response to a command
(44_host_ops.md R249) and the arrival of inputs (10_state.md R38). The block has no exception to take and none to return from
(60_exceptions.md R280, R286), so no operation here does either. -/

namespace Sys2Proof.Machine

/-- How an instruction ends. -/
abbrev Result : Type := Host.Outcome State Fault Refusal

/-! ### Inputs arriving -/

/-- The transport appends items to `rx_in` (R38). -/
def State.deliver (s : State) (items : List RxItem) : State := { s with rxIn := s.rxIn ++ items }

/-- The host puts a command on `cmd_in` (R91, R249). -/
def State.issue (s : State) (c : HostCommand) : State := { s with cmdIn := s.cmdIn ++ [c] }

/-! ### The RX engine's step -/

/-- What `rx_byte` gives (R120): the new state, the bytes for `data_out`, the ACK request and the control-response record. -/
structure RxOut where
  st : State
  outs : List Byte
  ack : Option AckReq
  ctrl : Option CtrlRec

/-- There is room for everything the step pushes (R120, the enabling condition). -/
def RxOut.fitsIn (r : RxOut) (s : State) : Bool :=
  fits r.outs.length (room s.params.dataqDepth s.dataOut) &&
  (match r.ack with | none => true | some _ => fits 1 (room s.params.ackqDepth s.ackq)) &&
  (match r.ctrl with | none => true | some _ => fits 1 (room s.params.crqDepth s.crq))

/-- The effect of an enabled step (R120): the item is popped, the state becomes `st'`, and the outputs are pushed. -/
def commit (s : State) (r : RxOut) : State :=
  { r.st with
    rxIn := s.rxIn.tail
    dataOut := s.dataOut ++ r.outs
    ackq := s.ackq ++ r.ack.toList
    crq := s.crq ++ r.ctrl.toList }

/-- One RX engine step on the byte `b` with outcome `r` (R120). It is enabled when the reader is live, `b` stands at the head of
`rx_in` and the outputs fit; else the engine is held and nothing changes (00_scope.md R11). -/
def consume (s : State) (b : Byte) (r : RxOut) : State :=
  if s.rxLive = true ∧ s.rxIn.head? = some (.byte b) ∧ r.fitsIn s = true then commit s r else s

/-- The step of one row of the receiver: `sel` is the row's condition on the state. A row that the state does not select has no
step (log entry 4). -/
def rxRow (sel : Bool) (s : State) (b : Byte) (r : RxOut) : Result :=
  .next (if sel then consume s b r else s)

/-! ### Completion of a packet -/

/-- The packet in flight is a data packet (R131). -/
def State.inData (s : State) : Bool := decide (s.hdrOp = s.params.opData)

/-- The ACK request of a completing packet (R220). -/
def ackRequest (s : State) : Option AckReq :=
  if s.inData || s.params.ackAll then some { seq := s.hdrSeq, len := s.hdrLen } else none

/-- The request would take the outstanding count past the negotiated bound (R221). -/
def exceedsBound (s : State) : Bool :=
  (ackRequest s).isSome && decide (s.maxOut ≠ 0) && decide (s.maxOut.toNat < s.ackq.length + 1)

/-- The control-response record of a completing packet (R135). -/
def ctrlRecord (s : State) : Option CtrlRec :=
  if s.inData then none
  else some { seq := s.hdrSeq, op := s.hdrOp, dest := s.hdrDest, payload := s.acc }

/-- Completion, R133 to R136. -/
def complete (s : State) (outs : List Byte) : RxOut where
  st := { s.flagIf (exceedsBound s) .outs with
    lastOp := s.hdrOp
    lastOpValid := true
    acc := if s.inData then s.acc else []
    fsm := .rh
    dcount := 0 }
  outs := outs
  ack := ackRequest s
  ctrl := ctrlRecord s

/-- A payload byte has been taken in: count it, and complete the packet when the count reaches the length (R131, R132). -/
def payloadByte (s : State) (outs : List Byte) : RxOut :=
  if s.dcount + 1 = s.hdrLen then complete { s with dcount := s.dcount + 1 } outs
  else { st := { s with dcount := s.dcount + 1 }, outs := outs, ack := none, ctrl := none }

/-! ### Emission of a packet -/

/-- `nextseq(x)` (R182): 0xFFFE wraps to 0. -/
def nextseq (x : Word) : Word := if x = 0xFFFE then 0x0000 else x + 1

/-- A packet the TX engine is about to emit: its opcode, destination and body, and the state with its queues advanced (R180). -/
structure Emission where
  op : Byte
  dest : Byte
  body : List Byte
  st : State

/-- `Wire(packet(tx_seq, op, dest, body)); tx_seq <- nextseq(tx_seq)` (R180, R225). -/
def emit (e : Emission) : State :=
  { e.st with
    txOut := e.st.txOut ++ packet e.st.txSeq e.op e.dest e.body
    txSeq := nextseq e.st.txSeq }

/-! ### Commands -/

/-- The command at the head of `cmd_in` completes: it leaves the port, and its response is given (R249). -/
def State.answer (s : State) (code : RspCode) (value : RspValue) : State :=
  { s with cmdIn := s.cmdIn.tail, rspOut := s.rspOut ++ [{ code := code, value := value }] }

end Sys2Proof.Machine
end

