-- ==== Sys2Proof/Machine/Events.lean ====
section
/-! DEFINITION. The inputs without operand: LINK_ERR (spec/60_exceptions.md R283) and RESET (70_reset_and_hazards.md R310). Both
are enabled in every state. -/

namespace Sys2Proof.Machine

/-- LINK_ERR (R283): both flows end, and what could still have been sent is discarded. -/
def execLinkErr (s : State) : Result :=
  .next (State.flag { s with rxLive := false, txLive := false, txq := [], cur := none, ackq := [] } .link)

/-- RESET (R310): every field of the block takes its reset value (10_state.md R43) and `rx_in` starts empty. `tx_out`, the
commands issued, the responses given and the agenda are not the block's and stay (log entry 3). -/
def execReset (s : State) : Result :=
  .next { s with
    rxLive := true
    txLive := true
    fsm := .rh
    matchCount := 0
    pcount := 0
    pbuf := Vector.replicate 6 0x00
    hdrRsv := 0
    hdrSeq := 0
    hdrOp := 0
    hdrDest := 0
    hdrLen := 0
    dcount := 0
    acc := []
    ds := .normal
    lastOp := 0x00
    lastOpValid := false
    txSeq := s.params.seqInit
    txq := []
    cur := none
    ackq := []
    maxOut := 0
    dataOut := []
    crq := []
    anom := 0x00
    rxIn := [] }

end Sys2Proof.Machine
end

