-- ==== Sys2Proof/Machine/HostCommands.lean ====
section
/-! DEFINITION. The host's commands (spec/44_host_ops.md R240 to R249). The command stands at the head of `cmd_in`; when it
completes it leaves the port and its response is given; a held command stays. -/

namespace Sys2Proof.Machine

/-- CMD_SEND: queued while the writer path is live and `txq` has room, held while `txq` is full (R240), turned away once the
writer path has failed (R241). -/
def execCmdSend (op dest : Byte) (payload : List Byte) (s : State) : Result :=
  .next
    (if s.txLive then
      if fits 1 (room s.params.txqDepth s.txq) then
        State.answer { s with txq := s.txq ++ [{ op := op, dest := dest, payload := payload }] } .ok .none
      else s
    else (s.flag .notOpen).answer .notOpen .none)

/-- CMD_STOP_RX (R242). -/
def execCmdStopRx (s : State) : Result := .next (State.answer { s with rxLive := false } .ok .none)

/-- CMD_SET_MAX_OUT (R243). -/
def execCmdSetMaxOut (v : Word) (s : State) : Result := .next (State.answer { s with maxOut := v } .ok .none)

/-- CMD_CLEAR_ANOM (R244): write one to clear. -/
def execCmdClearAnom (mask : Byte) (s : State) : Result := .next (State.answer { s with anom := s.anom &&& ~~~mask } .ok .none)

/-- CMD_POP_DATA (R245). -/
def execCmdPopData (s : State) : Result :=
  match s.dataOut with
  | [] => .next (s.answer .empty (.byte 0x00))
  | b :: bs => .next (State.answer { s with dataOut := bs } .ok (.byte b))

/-- CMD_POP_CTRL (R246). -/
def execCmdPopCtrl (s : State) : Result :=
  match s.crq with
  | [] => .next (s.answer .empty .none)
  | r :: rs => .next (State.answer { s with crq := rs } .ok (.record r))

/-- CMD_READ_STATUS (R247). -/
def execCmdReadStatus (s : State) : Result := .next (s.answer .ok (.status s.status))

/-- CMD_RESERVED: command kind 7 (R248). -/
def execCmdReserved (s : State) : Result := .next ((s.flag .badCmd).answer .badCmd .none)

end Sys2Proof.Machine
end

