-- ==== Sys2Proof/Machine/Destuff.lean ====
section
/-! DEFINITION. The de-stuffer and the meanings of its rows DS_N_MARK to DS_2_OTHER (spec/41_destuff.md R160 to R167). Each row
is the RX engine's step on a payload byte of a data packet (40_decoder.md R131) in which the de-stuffer takes that row. -/

namespace Sys2Proof.Machine

/-- `destuff(ds, b)` (R160): the new state and the bytes emitted. In SAW2 the sentinel is tested first. -/
def destuff (sentinel : Byte) (ds : Ds) (b : Byte) : Ds × List Byte :=
  match ds with
  | .normal => if b = Config.marker then (.saw1, []) else (.normal, [b])
  | .saw1 => if b = Config.marker then (.saw2, []) else (.normal, [Config.marker, b])
  | .saw2 => if b = sentinel then (.normal, [Config.marker, Config.marker]) else (.normal, [])

/-- The state takes a payload byte of a data packet with the de-stuffer in state `d` (R131, R160). -/
def State.destuffing (s : State) (d : Ds) : Bool :=
  decide (s.fsm = .rd) && s.inData && decide (s.ds = d)

/-- DS_N_MARK (R161): the marker is withheld. -/
def execDsNMark (s : State) : Result :=
  rxRow (s.destuffing .normal) s Config.marker (payloadByte { s with ds := .saw1 } [])

/-- DS_N_OTHER (R162): the byte is emitted. -/
def execDsNOther (b : Byte) (s : State) : Result :=
  rxRow (s.destuffing .normal && decide (b ≠ Config.marker)) s b (payloadByte { s with ds := .normal } [b])

/-- DS_1_MARK (R163): a second marker is withheld. -/
def execDs1Mark (s : State) : Result :=
  rxRow (s.destuffing .saw1) s Config.marker (payloadByte { s with ds := .saw2 } [])

/-- DS_1_OTHER (R164): the withheld marker is emitted, then the byte. -/
def execDs1Other (b : Byte) (s : State) : Result :=
  rxRow (s.destuffing .saw1 && decide (b ≠ Config.marker)) s b
    (payloadByte { s with ds := .normal } [Config.marker, b])

/-- DS_2_SENT (R165): the two withheld markers are emitted, the sentinel is not. -/
def execDs2Sent (b : Byte) (s : State) : Result :=
  rxRow (s.destuffing .saw2 && decide (b = s.params.litSentinel)) s b
    (payloadByte { s with ds := .normal } [Config.marker, Config.marker])

/-- DS_2_OTHER (R166): a status insertion; markers and byte are consumed and nothing is emitted. -/
def execDs2Other (b : Byte) (s : State) : Result :=
  rxRow (s.destuffing .saw2 && decide (b ≠ s.params.litSentinel)) s b (payloadByte { s with ds := .normal } [])

end Sys2Proof.Machine
end

