-- ==== Sys2Proof/Machine/RxEngine.lean ====
section
/-! DEFINITION. The RX engine: the frame decoder's rows (spec/40_decoder.md R120 to R138) and the meanings of RXI_BYTE, RXI_EOF,
RH_*, RP_*, PKT_EMPTY and RD_*. -/

namespace Sys2Proof.Machine

/-- A step that pushes nothing. -/
def quiet (st : State) : RxOut := { st := st, outs := [], ack := none, ctrl := none }

/-! ### The rules of a received byte -/

/-- R122: one more marker matched. -/
def rxMark (s : State) : RxOut := quiet { s with matchCount := s.matchCount + 1 }

/-- R123: the third marker enters ReadingParameters. -/
def rxMark3 (s : State) : RxOut := quiet { s with matchCount := 0, pcount := 0, fsm := .rp }

/-- R124: the byte is discarded and the match count starts over. -/
def rxOther (s : State) : RxOut := quiet { s with matchCount := 0 }

/-- R125: the byte is stored in the parameter buffer. -/
def rxParam (s : State) (b : Byte) : RxOut :=
  quiet { s with pbuf := s.pbuf.setIfInBounds s.pcount.val b, pcount := s.pcount + 1 }

/-- The marker bytes a de-stuffer state withholds (10_state.md R29). -/
def withheld : Ds → List Byte
  | .normal => []
  | .saw1 => [Config.marker]
  | .saw2 => [Config.marker, Config.marker]

/-- R126: the parameter block is decoded, its opcode checked, and the de-stuffer returns to Normal. The withheld markers are the
step's output. -/
def latchHeader (s : State) (b : Byte) : State :=
  { s.flagIf (!s.params.catalog.contains s.pbuf[3]) .opc with
    hdrRsv := s.pbuf[0]
    hdrSeq := be16 s.pbuf[1] s.pbuf[2]
    hdrOp := s.pbuf[3]
    hdrDest := s.pbuf[4]
    hdrLen := be16 s.pbuf[5] b
    pcount := 0
    ds := .normal }

/-- R126 and R127: length 0, back to ReadingHeader. -/
def rxEmpty (s : State) (b : Byte) : RxOut :=
  { st := { latchHeader s b with fsm := .rh }, outs := withheld s.ds, ack := none, ctrl := none }

/-- R126 and R128: on to ReadingData. -/
def rxEnterData (s : State) (b : Byte) : RxOut :=
  { st := { latchHeader s b with fsm := .rd, dcount := 0, acc := [] }, outs := withheld s.ds, ack := none, ctrl := none }

/-- R126, then R127 or R128 by the length. -/
def rxLast (s : State) (b : Byte) : RxOut :=
  if be16 s.pbuf[5] b = 0 then rxEmpty s b else rxEnterData s b

/-- R131: the byte passes through the de-stuffer. -/
def rxData (s : State) (b : Byte) : RxOut :=
  payloadByte { s with ds := (destuff s.params.litSentinel s.ds b).1 } (destuff s.params.litSentinel s.ds b).2

/-- R132: the byte is accumulated. -/
def rxCtrl (s : State) (b : Byte) : RxOut := payloadByte { s with acc := s.acc ++ [b] } []

/-- `rx_byte(st, b)`: R120's dispatch. -/
def rxByte (s : State) (b : Byte) : RxOut :=
  match s.fsm with
  | .rh => if b = Config.marker then (if s.matchCount.val < 2 then rxMark s else rxMark3 s) else rxOther s
  | .rp => if s.pcount.val < 6 then rxParam s b else rxLast s b
  | .rd => if s.hdrOp = s.params.opData then rxData s b else rxCtrl s b

/-- R137: the peer has closed. It needs no room. A stopped reader has no step (R138). -/
def rxEof (s : State) : State :=
  if s.rxLive = true ∧ s.rxIn.head? = some .eof then
    { s.flag .eof with rxIn := s.rxIn.tail, rxLive := false }
  else s

/-! ### The engine run over several items -/

/-- `rx_step` (R120): one step on the item at the head of `rx_in`, where it is enabled. -/
def rxTurn (s : State) : State :=
  match s.rxIn with
  | [] => s
  | .eof :: _ => rxEof s
  | .byte b :: _ => consume s b (rxByte s b)

/-- Up to `n` steps of the RX engine. -/
def rxTurns : Nat → State → State
  | 0, s => s
  | n + 1, s => rxTurns n (rxTurn s)

/-- The script line `RX hh hh ...` (30_encoding.md R94): the bytes arrive, then the RX engine takes one step per byte. -/
def rxLine (s : State) (bytes : List Byte) : State :=
  rxTurns bytes.length (s.deliver (bytes.map RxItem.byte))

/-! ### Meanings -/

/-- RXI_BYTE (R120). -/
def execRxiByte (b : Byte) (s : State) : Result := .next (consume s b (rxByte s b))

/-- RXI_EOF (R137). -/
def execRxiEof (s : State) : Result := .next (rxEof s)

/-- RH_MARK (R122). -/
def execRhMark (s : State) : Result :=
  rxRow (decide (s.fsm = .rh) && decide (s.matchCount.val < 2)) s Config.marker (rxMark s)

/-- RH_MARK3 (R123). -/
def execRhMark3 (s : State) : Result :=
  rxRow (decide (s.fsm = .rh) && decide (s.matchCount = 2)) s Config.marker (rxMark3 s)

/-- RH_OTHER (R124). -/
def execRhOther (b : Byte) (s : State) : Result :=
  rxRow (decide (s.fsm = .rh) && decide (b ≠ Config.marker)) s b (rxOther s)

/-- RP_BYTE (R125). -/
def execRpByte (b : Byte) (s : State) : Result :=
  rxRow (decide (s.fsm = .rp) && decide (s.pcount.val < 6)) s b (rxParam s b)

/-- RP_LAST (R126, then R127 or R128). -/
def execRpLast (b : Byte) (s : State) : Result :=
  rxRow (decide (s.fsm = .rp) && decide (s.pcount = 6)) s b (rxLast s b)

/-- PKT_EMPTY (R126 with R127). -/
def execPktEmpty (b : Byte) (s : State) : Result :=
  rxRow (decide (s.fsm = .rp) && decide (s.pcount = 6) && decide (be16 s.pbuf[5] b = 0)) s b (rxEmpty s b)

/-- RD_DATA (R131, R133 to R136). -/
def execRdData (b : Byte) (s : State) : Result :=
  rxRow (decide (s.fsm = .rd) && s.inData) s b (rxData s b)

/-- RD_CTRL (R132, R133 to R136). -/
def execRdCtrl (b : Byte) (s : State) : Result :=
  rxRow (decide (s.fsm = .rd) && !s.inData) s b (rxCtrl s b)

end Sys2Proof.Machine
end

