-- ==== Sys2Proof/Machine/TxEngine.lean ====
section
/-! DEFINITION. The TX engine: chunking and byte-stuffing (spec/42_encoder.md R183, R184), the choice of the packet to emit
(R180, 43_ack_tracker.md R225), and the meanings of TX_STEP, PKT_DATA, PKT_CTRL and PKT_ACK. -/

namespace Sys2Proof.Machine

/-! ### Chunking -/

/-- A closed chunk in front of the further ones. -/
def Chunks.push (chunk : List Byte) (more : Chunks) : Chunks :=
  { first := chunk, rest := more.first :: more.rest }

/-- All the bodies, in order. -/
def Chunks.toList (c : Chunks) : List (List Byte) := c.first :: c.rest

/-- R183 with the chunk filled so far: a byte that does not fit in `limit` starts the next chunk. -/
def plainFrom (limit : Nat) : List Byte → List Byte → Chunks
  | chunk, [] => { first := chunk, rest := [] }
  | chunk, b :: bs =>
    if limit < chunk.length + 1 then (plainFrom limit [b] bs).push chunk
    else plainFrom limit (chunk ++ [b]) bs

/-- `plain_chunks(p)` (R183). -/
def plainChunks (limit : Nat) (p : List Byte) : Chunks := plainFrom limit [] p

/-- R184's `exp`: the wire bytes of one raw byte, where `unpaired` says that the chunk ends in an unpaired marker. -/
def expansion (sentinel : Byte) (unpaired : Bool) (b : Byte) : List Byte :=
  if b = Config.marker then (if unpaired then [Config.marker, sentinel] else [Config.marker]) else [b]

/-- R184's `c` after a byte. -/
def stillUnpaired (unpaired : Bool) (b : Byte) : Bool := decide (b = Config.marker) && !unpaired

/-- R184's loop, with the chunk filled so far and its pair count. -/
def stuffFrom (sentinel : Byte) (limit : Nat) : List Byte → Bool → List Byte → Chunks
  | chunk, _, [] => { first := chunk, rest := [] }
  | chunk, unpaired, b :: bs =>
    if limit < chunk.length + (expansion sentinel unpaired b).length then
      (stuffFrom sentinel limit (expansion sentinel false b) (stillUnpaired false b) bs).push chunk
    else stuffFrom sentinel limit (chunk ++ expansion sentinel unpaired b) (stillUnpaired unpaired b) bs

/-- `stuff_chunks(p)` (R184). -/
def stuffChunks (sentinel : Byte) (limit : Nat) (p : List Byte) : Chunks := stuffFrom sentinel limit [] false p

/-- `packetize(op, p)` (R183): only the data opcode is stuffed. -/
def packetize (p : Params) (op : Byte) (payload : List Byte) : Chunks :=
  if op = p.opData then stuffChunks p.litSentinel p.maxPayload payload else plainChunks p.maxPayload payload

/-! ### The choice of the packet -/

/-- What is left of a command once its first body is emitted (R180). -/
def afterFirst (op dest : Byte) (c : Chunks) : Option Current :=
  match c.rest with
  | [] => none
  | d :: ds => some { op := op, dest := dest, chunks := { first := d, rest := ds } }

/-- R225: the ACK packet of the oldest request. -/
def txAck (s : State) : Option Emission :=
  match s.ackq with
  | [] => none
  | r :: rs => some { op := s.params.opAck, dest := s.params.ackDest, body := ackBody r.seq r.len, st := { s with ackq := rs } }

/-- R180, second and third branch: the next chunk of the current command, else the first of the next command. -/
def txHost (s : State) : Option Emission :=
  match s.cur with
  | some c =>
    some { op := c.op, dest := c.dest, body := c.chunks.first, st := { s with cur := afterFirst c.op c.dest c.chunks } }
  | none =>
    match s.txq with
    | [] => none
    | q :: qs =>
      some { op := q.op, dest := q.dest, body := (packetize s.params q.op q.payload).first,
             st := { s with txq := qs, cur := afterFirst q.op q.dest (packetize s.params q.op q.payload) } }

/-- R180: ACK packets go first. -/
def txPick (s : State) : Option Emission :=
  match s.ackq with
  | [] => txHost s
  | _ :: _ => txAck s

/-- `tx_step` (R180): one packet, where the writer is live and there is one to emit. -/
def txTurn (s : State) : State :=
  if s.txLive then
    match txPick s with
    | none => s
    | some e => emit e
  else s

/-- The TX engine's step, where the packet it emits is the given one and is chosen by `pick`; in any other state that row of the
TX engine has no step (log entry 4). -/
def txSends (s : State) (pick : Option Emission) (rsv : Byte) (seq : Word) (op dest : Byte) (body : List Byte) : State :=
  match pick with
  | none => s
  | some e =>
    if s.txLive = true ∧ rsv = Config.hdrRsv ∧ seq = s.txSeq ∧ op = e.op ∧ dest = e.dest ∧ body = e.body then emit e
    else s

/-- The host's packet, where no ACK packet goes before it (R180). -/
def txHostNow (s : State) : Option Emission :=
  match s.ackq with
  | [] => txHost s
  | _ :: _ => none

/-! ### Meanings -/

/-- TX_STEP (R180). -/
def execTxStep (s : State) : Result := .next (txTurn s)

/-- PKT_DATA. Sent: the TX engine emits this packet (R180, R181, R184). Received: the packet arrives and the RX engine takes one
step per byte (30_encoding.md R94, `RXPKT`; R120 to R136, R160 to R167). -/
def execPktData (dir : Dir) (rsv : Byte) (seq : Word) (dest : Byte) (body : List Byte) (s : State) : Result :=
  match dir with
  | .sent => .next (txSends s (txHostNow s) rsv seq s.params.opData dest body)
  | .received => .next (rxLine s (wireBytes rsv seq s.params.opData dest body))

/-- PKT_CTRL. Sent: the TX engine emits this packet (R180, R181, R183). Received: as PKT_DATA (R120 to R136). A packet with the
data opcode is no control packet (R84) and is not sent as one. -/
def execPktCtrl (dir : Dir) (rsv : Byte) (seq : Word) (op dest : Byte) (body : List Byte) (s : State) : Result :=
  match dir with
  | .sent => .next (if op = s.params.opData then s else txSends s (txHostNow s) rsv seq op dest body)
  | .received => .next (rxLine s (wireBytes rsv seq op dest body))

/-- PKT_ACK. Sent: the TX engine emits the ACK packet of the oldest request (R225). Received: a control packet like any other
(R84, R224). -/
def execPktAck (dir : Dir) (seq rseq rlen : Word) (s : State) : Result :=
  match dir with
  | .sent => .next (txSends s (txAck s) Config.hdrRsv seq s.params.opAck s.params.ackDest (ackBody rseq rlen))
  | .received => .next (rxLine s (wireBytes Config.hdrRsv seq s.params.opAck s.params.ackDest (ackBody rseq rlen)))

end Sys2Proof.Machine
end

