-- ==== Sys2Proof/Machine/Dispatch.lean ====
section
/-! DEFINITION. One arm per row of spec/opcode_table.json. -/

namespace Sys2Proof.Machine

def exec (i : Instr) (s : State) : Host.Outcome State Fault Refusal :=
  match i with
  -- rx_in items
  | .rxiByte b => Sys2Proof.Machine.execRxiByte b s
  | .rxiEof => Sys2Proof.Machine.execRxiEof s
  -- the frame decoder's rows
  | .rhMark => Sys2Proof.Machine.execRhMark s
  | .rhMark3 => Sys2Proof.Machine.execRhMark3 s
  | .rhOther b => Sys2Proof.Machine.execRhOther b s
  | .rpByte b => Sys2Proof.Machine.execRpByte b s
  | .rpLast b => Sys2Proof.Machine.execRpLast b s
  | .pktEmpty b => Sys2Proof.Machine.execPktEmpty b s
  | .rdData b => Sys2Proof.Machine.execRdData b s
  | .rdCtrl b => Sys2Proof.Machine.execRdCtrl b s
  -- the de-stuffer's rows
  | .dsNMark => Sys2Proof.Machine.execDsNMark s
  | .dsNOther b => Sys2Proof.Machine.execDsNOther b s
  | .ds1Mark => Sys2Proof.Machine.execDs1Mark s
  | .ds1Other b => Sys2Proof.Machine.execDs1Other b s
  | .ds2Sent b => Sys2Proof.Machine.execDs2Sent b s
  | .ds2Other b => Sys2Proof.Machine.execDs2Other b s
  -- wire packets and the TX engine
  | .pktData dir rsv seq dest body => Sys2Proof.Machine.execPktData dir rsv seq dest body s
  | .pktCtrl dir rsv seq op dest body => Sys2Proof.Machine.execPktCtrl dir rsv seq op dest body s
  | .pktAck dir seq rseq rlen => Sys2Proof.Machine.execPktAck dir seq rseq rlen s
  | .txStep => Sys2Proof.Machine.execTxStep s
  -- host commands
  | .cmdSend op dest payload => Sys2Proof.Machine.execCmdSend op dest payload s
  | .cmdStopRx => Sys2Proof.Machine.execCmdStopRx s
  | .cmdSetMaxOut v => Sys2Proof.Machine.execCmdSetMaxOut v s
  | .cmdClearAnom mask => Sys2Proof.Machine.execCmdClearAnom mask s
  | .cmdPopData => Sys2Proof.Machine.execCmdPopData s
  | .cmdPopCtrl => Sys2Proof.Machine.execCmdPopCtrl s
  | .cmdReadStatus => Sys2Proof.Machine.execCmdReadStatus s
  | .cmdReserved => Sys2Proof.Machine.execCmdReserved s
  -- events
  | .linkErr => Sys2Proof.Machine.execLinkErr s
  | .reset => Sys2Proof.Machine.execReset s

end Sys2Proof.Machine
end

