-- ==== Sys2Proof/Machine/Fetch.lean ====
section
/-! DEFINITION. What the next turn of the agenda brings: an input that lands, or the instruction that the agent whose turn it is
reads at its port (spec/20_memory.md R65, 30_encoding.md R91, R92, R94; log entries 2 and 6). -/

namespace Sys2Proof.Machine

/-- The next thing to happen: the environment changes a port (or nothing happens), or an instruction runs in a state. -/
inductive Action where
  | land (s : State)
  | run (i : Instr) (s : State)

/-- The bytes of a script line `RX hh hh ...`: where they are one whole packet, its row; else they arrive and are consumed as
they are, since no byte is illegal on the wire (30_encoding.md R93). -/
def fetchLine (s : State) (bytes : List Byte) : Action :=
  match decodePacket s.params .received bytes with
  | .ok i => .run i s
  | .error _ => .land (rxLine s bytes)

/-- What one turn brings in the state `s`, from whose agenda it has been taken. An agent with nothing at its port has no step
(00_scope.md R11). -/
def fetchTurn (t : Turn) (s : State) : Action :=
  match t with
  | .deliver items => .land (s.deliver items)
  | .issue c => .land (s.issue c)
  | .rxEngine =>
    match s.rxIn with
    | [] => .land s
    | it :: _ => .run (decodeItem it.code) s
  | .txEngine => .run .txStep s
  | .host =>
    match s.cmdIn with
    | [] => .land s
    | c :: _ => .run (decodeCommand c.word c.payload) s
  | .linkErr => .run .linkErr s
  | .reset => .run .reset s
  | .rxLine bytes => fetchLine s bytes

/-- What the agenda brings next. When it is empty, no agent moves and no input arrives. -/
def fetch (s : State) : Action :=
  match s.agenda with
  | [] => .land s
  | t :: ts => fetchTurn t { s with agenda := ts }

/-- Puts a code where the next turn reads it, and makes that turn the next one. -/
def placeCode (s : State) (src : Source) (code : Code) : State :=
  match src, code with
  | .rxPort, .item w => { s with rxIn := itemOfCode w :: s.rxIn, agenda := .rxEngine :: s.agenda }
  | .frame _, .byte b => { s with rxIn := .byte b :: s.rxIn, agenda := .rxEngine :: s.agenda }
  | .outcome _, .byte b => { s with rxIn := .byte b :: s.rxIn, agenda := .rxEngine :: s.agenda }
  | .wire _, .packet bytes => { s with agenda := .rxLine bytes :: s.agenda }
  | .cmdPort, .command w payload => { s with cmdIn := { word := w, payload := payload } :: s.cmdIn, agenda := .host :: s.agenda }
  | .txTurn, .event => { s with agenda := .txEngine :: s.agenda }
  | .linkErrPin, .event => { s with agenda := .linkErr :: s.agenda }
  | .resetPin, .event => { s with agenda := .reset :: s.agenda }
  | _, _ => s

end Sys2Proof.Machine
end

