-- ==== Sys2Proof/Machine/Step.lean ====
section
/-! DEFINITION. One step of the machine: the next turn of the agenda (spec/20_memory.md R65). -/

namespace Sys2Proof.Machine

/-- One step: the next input lands, or the next instruction runs. -/
def step (s : State) : Host.Outcome State Fault Refusal :=
  match fetch s with
  | .land t => .next t
  | .run i t => exec i t

/-- The word of a table row stored where the next step reads it (log entries 5 and 7). A row without bits has no word, and then
nothing changes. -/
def State.withFetchWord (s : State) (nbits w : Nat) : State :=
  match tableCode nbits w with
  | some (src, code) => placeCode s src code
  | none => s

end Sys2Proof.Machine
end

