-- ==== Sys2Proof/Safety.lean ====
section
/-! DEFINITION. What counts as a safe state (spec/10_state.md R42), and the terms in which the claims speak: the state a rule
describes, the de-stuffer over a byte string, the tokens of a data payload, and the packets still to be sent. -/

namespace Sys2Proof.Machine

/-! ### The invariants of R42 -/

/-- R42, with what its proof needs besides: `dcount` and `acc` are clear in RP too (R27, R28), the de-stuffer is in Normal while
a control packet is read (R132), no body of the current command is longer than `MAX_PAYLOAD` (R183, R184), and the parameters
meet R6 and R7. R42's item 4 speaks of the past and is no property of one state. -/
structure Legal (s : State) : Prop where
  params : s.params.valid
  header : s.fsm = .rh → s.pcount = 0 ∧ s.dcount = 0 ∧ s.acc = []
  parameters : s.fsm = .rp → s.matchCount = 0 ∧ s.dcount = 0 ∧ s.acc = []
  data : s.fsm = .rd → s.matchCount = 0 ∧ s.pcount = 0 ∧ 1 ≤ s.hdrLen.toNat ∧ s.dcount.toNat < s.hdrLen.toNat ∧
    s.acc.length = (if s.hdrOp = s.params.opData then 0 else s.dcount.toNat)
  control : s.fsm = .rd → s.hdrOp ≠ s.params.opData → s.ds = .normal
  sequence : s.txSeq.toNat ≤ 0xFFFE
  dataqBound : s.dataOut.length ≤ s.params.dataqDepth
  crqBound : s.crq.length ≤ s.params.crqDepth
  ackqBound : s.ackq.length ≤ s.params.ackqDepth
  txqBound : s.txq.length ≤ s.params.txqDepth
  bodies : ∀ c, s.cur = some c → ∀ body ∈ c.chunks.toList, body.length ≤ s.params.maxPayload
  reserved : s.anom &&& 0xC0 = 0

/-! ### States the rules describe -/

/-- The RX engine is about to read the byte `b`, with `rest` behind it. -/
def Reading (s : State) (b : Byte) (rest : List RxItem) : Prop := s.rxLive = true ∧ s.rxIn = .byte b :: rest

/-- The host's next command, at the head of `cmd_in`, is `i`, with `rest` behind it (R91, R249). -/
def Issued (s : State) (i : Instr) (rest : List HostCommand) : Prop :=
  ∃ c, s.cmdIn = c :: rest ∧ decodeCommand c.word c.payload = i

/-- The RX engine is between packets and has nothing to read. -/
def Waiting (s : State) : Prop := s.rxLive = true ∧ s.rxIn = [] ∧ s.fsm = .rh ∧ s.matchCount = 0

/-- A payload byte `b` of a data packet is next, the de-stuffer is in state `d`, and if the packet completes there is room for
its ACK request (R120, R131). -/
def ReadingData (s : State) (d : Ds) (b : Byte) (rest : List RxItem) : Prop :=
  Reading s b rest ∧ s.fsm = .rd ∧ s.hdrOp = s.params.opData ∧ s.ds = d ∧
  (s.dcount + 1 = s.hdrLen → s.ackq.length < s.params.ackqDepth)

/-- `anom` after a completion that makes an ACK request (R221). -/
def anomAfterRequest (s : State) : Byte :=
  if s.maxOut ≠ 0 ∧ s.maxOut.toNat < s.ackq.length + 1 then s.anom ||| 0x02 else s.anom

/-- The state after a payload byte of a data packet that leaves the de-stuffer in `d` and emits `outs` (R131, and R133, R134,
R136, R220, R221 where it is the last). -/
def afterDataByte (s : State) (rest : List RxItem) (d : Ds) (outs : List Byte) : State :=
  if s.dcount + 1 = s.hdrLen then
    { s with
      rxIn := rest, ds := d, dataOut := s.dataOut ++ outs
      fsm := .rh, dcount := 0, lastOp := s.hdrOp, lastOpValid := true
      ackq := s.ackq ++ [{ seq := s.hdrSeq, len := s.hdrLen }], anom := anomAfterRequest s }
  else { s with rxIn := rest, ds := d, dataOut := s.dataOut ++ outs, dcount := s.dcount + 1 }

/-- The state after a payload byte `b` of a control packet (R132, and R133 to R136, R220, R221 where it is the last). -/
def afterCtrlByte (s : State) (rest : List RxItem) (b : Byte) : State :=
  if s.dcount + 1 = s.hdrLen then
    { s with
      rxIn := rest
      fsm := .rh, dcount := 0, lastOp := s.hdrOp, lastOpValid := true, acc := []
      crq := s.crq ++ [{ seq := s.hdrSeq, op := s.hdrOp, dest := s.hdrDest, payload := s.acc ++ [b] }]
      ackq := if s.params.ackAll then s.ackq ++ [{ seq := s.hdrSeq, len := s.hdrLen }] else s.ackq
      anom := if s.params.ackAll then anomAfterRequest s else s.anom }
  else { s with rxIn := rest, acc := s.acc ++ [b], dcount := s.dcount + 1 }

/-- The latches, the buffer and the flags after a whole parameter block has been read from ReadingHeader, with the decoder back
there and its withheld markers emitted (R125, R126). -/
def afterBlock (s : State) (rsv : Byte) (seq : Word) (op dest : Byte) (len : Word) : State :=
  { s with
    fsm := .rh, matchCount := 0, pcount := 0, ds := .normal
    pbuf := #v[rsv, hi8 seq, lo8 seq, op, dest, hi8 len]
    hdrRsv := rsv, hdrSeq := seq, hdrOp := op, hdrDest := dest, hdrLen := len
    dataOut := s.dataOut ++ withheld s.ds
    anom := if op ∈ s.params.catalog then s.anom else s.anom ||| 0x01 }

/-! ### Byte strings and tokens -/

/-- The de-stuffer over a byte string: the final state and all it emits (R160). -/
def destuffAll (sentinel : Byte) : Ds → List Byte → Ds × List Byte
  | d, [] => (d, [])
  | d, b :: bs =>
    ((destuffAll sentinel (destuff sentinel d b).1 bs).1,
      (destuff sentinel d b).2 ++ (destuffAll sentinel (destuff sentinel d b).1 bs).2)

/-- The tokens of a data payload (30_encoding.md R88). -/
inductive Token where
  | plain (b : Byte)
  | lone (x : Byte)
  | pair
  | status (v : Byte)
  deriving DecidableEq, Repr

/-- The condition column of R88. -/
def Token.ok (sentinel : Byte) : Token → Prop
  | .plain b => b ≠ Config.marker
  | .lone x => x ≠ Config.marker
  | .pair => True
  | .status v => v ≠ sentinel

/-- The bytes column of R88. -/
def Token.bytes (sentinel : Byte) : Token → List Byte
  | .plain b => [b]
  | .lone x => [Config.marker, x]
  | .pair => [Config.marker, Config.marker, sentinel]
  | .status v => [Config.marker, Config.marker, v]

/-- The output column of R88. -/
def Token.output : Token → List Byte
  | .plain b => [b]
  | .lone x => [Config.marker, x]
  | .pair => [Config.marker, Config.marker]
  | .status _ => []

/-- How many markers a byte string ends in. -/
def markerTail (p : List Byte) : Nat := (p.reverse.takeWhile fun b => decide (b = Config.marker)).length

/-- R184's pair count at the end of its loop: the last chunk ends in an unpaired marker. -/
def endsUnpaired (sentinel : Byte) (limit : Nat) : List Byte → Bool → List Byte → Bool
  | _, unpaired, [] => unpaired
  | chunk, unpaired, b :: bs =>
    if limit < chunk.length + (expansion sentinel unpaired b).length then
      endsUnpaired sentinel limit (expansion sentinel false b) (stillUnpaired false b) bs
    else endsUnpaired sentinel limit (chunk ++ expansion sentinel unpaired b) (stillUnpaired unpaired b) bs

/-- The payload stuffed as one chunk: R184 with a limit that closes no chunk (R185's `w`). -/
def stuffWhole (sentinel : Byte) (p : List Byte) : List Byte := (stuffChunks sentinel (2 * p.length) p).first

/-! ### Packets still to be sent -/

/-- How many packets a queued command makes (R183, R185). -/
def packetsOf (p : Params) (q : SendCmd) : Nat := (packetize p q.op q.payload).toList.length

/-- How many packets the TX engine still has to emit: one per ACK request, one per body of the current command, and those of the
queued commands (R180). -/
def pending (s : State) : Nat :=
  s.ackq.length + (match s.cur with | none => 0 | some c => c.chunks.toList.length) +
    (s.txq.map (packetsOf s.params)).sum

/-- `n` steps of the TX engine. -/
def txTurns : Nat → State → State
  | 0, s => s
  | n + 1, s => txTurns n (txTurn s)

/-- The TX engine has nothing to emit (70_reset_and_hazards.md R315, step 3). -/
def TxIdle (s : State) : Prop := s.ackq = [] ∧ s.cur = none ∧ s.txq = []

/-! ### Whose rows -/

/-- The rows that are one step of the RX engine (20_memory.md R65, R69). -/
def ofRxEngine : Instr → Bool
  | .rxiByte _ => true
  | .rxiEof => true
  | .rhMark => true
  | .rhMark3 => true
  | .rhOther _ => true
  | .rpByte _ => true
  | .rpLast _ => true
  | .pktEmpty _ => true
  | .rdData _ => true
  | .rdCtrl _ => true
  | .dsNMark => true
  | .dsNOther _ => true
  | .ds1Mark => true
  | .ds1Other _ => true
  | .ds2Sent _ => true
  | .ds2Other _ => true
  | .pktData _ _ _ _ _ => false
  | .pktCtrl _ _ _ _ _ _ => false
  | .pktAck _ _ _ _ => false
  | .txStep => false
  | .cmdSend _ _ _ => false
  | .cmdStopRx => false
  | .cmdSetMaxOut _ => false
  | .cmdClearAnom _ => false
  | .cmdPopData => false
  | .cmdPopCtrl => false
  | .cmdReadStatus => false
  | .cmdReserved => false
  | .linkErr => false
  | .reset => false

/-- The rows that are one step of the TX engine (R65, R69). -/
def ofTxEngine : Instr → Bool
  | .rxiByte _ => false
  | .rxiEof => false
  | .rhMark => false
  | .rhMark3 => false
  | .rhOther _ => false
  | .rpByte _ => false
  | .rpLast _ => false
  | .pktEmpty _ => false
  | .rdData _ => false
  | .rdCtrl _ => false
  | .dsNMark => false
  | .dsNOther _ => false
  | .ds1Mark => false
  | .ds1Other _ => false
  | .ds2Sent _ => false
  | .ds2Other _ => false
  | .pktData dir _ _ _ _ => decide (dir = .sent)
  | .pktCtrl dir _ _ _ _ _ => decide (dir = .sent)
  | .pktAck dir _ _ _ => decide (dir = .sent)
  | .txStep => true
  | .cmdSend _ _ _ => false
  | .cmdStopRx => false
  | .cmdSetMaxOut _ => false
  | .cmdClearAnom _ => false
  | .cmdPopData => false
  | .cmdPopCtrl => false
  | .cmdReadStatus => false
  | .cmdReserved => false
  | .linkErr => false
  | .reset => false

/-- The rows that are host commands (R65, R69). -/
def ofHost : Instr → Bool
  | .rxiByte _ => false
  | .rxiEof => false
  | .rhMark => false
  | .rhMark3 => false
  | .rhOther _ => false
  | .rpByte _ => false
  | .rpLast _ => false
  | .pktEmpty _ => false
  | .rdData _ => false
  | .rdCtrl _ => false
  | .dsNMark => false
  | .dsNOther _ => false
  | .ds1Mark => false
  | .ds1Other _ => false
  | .ds2Sent _ => false
  | .ds2Other _ => false
  | .pktData _ _ _ _ _ => false
  | .pktCtrl _ _ _ _ _ _ => false
  | .pktAck _ _ _ _ => false
  | .txStep => false
  | .cmdSend _ _ _ => true
  | .cmdStopRx => true
  | .cmdSetMaxOut _ => true
  | .cmdClearAnom _ => true
  | .cmdPopData => true
  | .cmdPopCtrl => true
  | .cmdReadStatus => true
  | .cmdReserved => true
  | .linkErr => false
  | .reset => false

end Sys2Proof.Machine
end

