-- ==== Sys2Proof/Certificates/Slice0/Obligations.lean ====
section
/-! DEFINITION. The statements for the provers. An equation `exec i s = .next t` with `t` a record update of `s` says the result,
the completion and the frame at once: every field the update does not name is as it was. The block has no memory, so a frame
needs no clause about bytes of memory (spec/20_memory.md R60). -/

open Sys2Proof Sys2Proof.Machine

/-! ### Encoding -/

/-- Every operand of every row reads back: no bit of an encoding is dropped (30_encoding.md sections 1 to 3). -/
def Obligations.DecodeInvertsEncode : Prop :=
  ∀ (p : Params) (i : Instr), p.valid → i.wf p = true → decode p (i.source p) (encode p i) = .ok i

/-- The command words of 95_test_vectors.md L2-30, and the two kinds of `rx_in` item (R91, R92). -/
def Obligations.TableWordsDecode : Prop :=
  decodeCommand 0x0000CC00 [] = .cmdSend 0xCC 0x00 [] ∧ decodeCommand 0x00000001 [] = .cmdStopRx ∧
  decodeCommand 0x00040002 [] = .cmdSetMaxOut 4 ∧ decodeCommand 0x00000103 [] = .cmdClearAnom 0x01 ∧
  decodeCommand 0x00000004 [] = .cmdPopData ∧ decodeCommand 0x00000005 [] = .cmdPopCtrl ∧
  decodeCommand 0x00000006 [] = .cmdReadStatus ∧ decodeCommand 0x00000007 [] = .cmdReserved ∧
  decodeCommand 0xFFFFFFFC [] = .cmdPopData ∧
  decodeItem 0b000011011 = .rxiByte 0x1B ∧ decodeItem 0b100000000 = .rxiEof

/-- Bits a command does not use never change what it is read as (R91). -/
def Obligations.UnusedCommandBitsAreIgnored : Prop :=
  ∀ (w : BitVec 32) (payload : List Byte) (junk : BitVec 5) (high : Word) (low top : Byte),
    decodeCommand (w.extractLsb' 8 24 ++ junk ++ w.extractLsb' 0 3) payload = decodeCommand w payload ∧
    ((w.extractLsb' 0 3).toNat = 0 → decodeCommand (top ++ w.extractLsb' 0 24) payload = decodeCommand w payload) ∧
    ((w.extractLsb' 0 3).toNat = 2 →
      decodeCommand (w.extractLsb' 16 16 ++ low ++ w.extractLsb' 0 8) payload = decodeCommand w payload) ∧
    ((w.extractLsb' 0 3).toNat = 3 → decodeCommand (high ++ w.extractLsb' 0 16) payload = decodeCommand w payload) ∧
    ((w.extractLsb' 0 3).toNat = 1 ∨ 4 ≤ (w.extractLsb' 0 3).toNat →
      decodeCommand (high ++ low ++ w.extractLsb' 0 8) payload = decodeCommand w payload)

/-- A step runs the instruction that the agent whose turn it is reads at its port, after that turn has left the agenda. -/
def Obligations.StepRunsDecodedInstruction : Prop :=
  (∀ (s : State) (ts : List Turn) (it : RxItem) (rest : List RxItem) (i : Instr),
    s.agenda = .rxEngine :: ts → s.rxIn = it :: rest → decode s.params .rxPort (.item it.code) = .ok i →
    step s = exec i { s with agenda := ts }) ∧
  (∀ (s : State) (ts : List Turn) (c : HostCommand) (rest : List HostCommand) (i : Instr),
    s.agenda = .host :: ts → s.cmdIn = c :: rest → decode s.params .cmdPort (.command c.word c.payload) = .ok i →
    step s = exec i { s with agenda := ts }) ∧
  (∀ (s : State) (ts : List Turn) (bytes : List Byte) (i : Instr),
    s.agenda = .rxLine bytes :: ts → decode s.params (.wire .received) (.packet bytes) = .ok i →
    step s = exec i { s with agenda := ts }) ∧
  (∀ (s : State) (ts : List Turn), s.agenda = .txEngine :: ts → step s = exec .txStep { s with agenda := ts }) ∧
  (∀ (s : State) (ts : List Turn), s.agenda = .linkErr :: ts → step s = exec .linkErr { s with agenda := ts }) ∧
  (∀ (s : State) (ts : List Turn), s.agenda = .reset :: ts → step s = exec .reset { s with agenda := ts })

/-- The inputs that are no instruction land on their ports, an agent with nothing at its port does not move, and with an empty
agenda nothing moves. A received line that is not one whole packet arrives and is consumed as it is (R93, R94; log entry 16). The
agenda is the model's own (log entry 2). -/
def Obligations.StepLandsInputs : Prop :=
  (∀ s : State, s.agenda = [] → step s = .next s) ∧
  (∀ (s : State) (ts : List Turn) (items : List RxItem), s.agenda = .deliver items :: ts →
    step s = .next { s with agenda := ts, rxIn := s.rxIn ++ items }) ∧
  (∀ (s : State) (ts : List Turn) (c : HostCommand), s.agenda = .issue c :: ts →
    step s = .next { s with agenda := ts, cmdIn := s.cmdIn ++ [c] }) ∧
  (∀ (s : State) (ts : List Turn), s.agenda = .rxEngine :: ts → s.rxIn = [] → step s = .next { s with agenda := ts }) ∧
  (∀ (s : State) (ts : List Turn), s.agenda = .host :: ts → s.cmdIn = [] → step s = .next { s with agenda := ts }) ∧
  (∀ (s : State) (ts : List Turn) (bytes : List Byte) (e : DecodeError), s.agenda = .rxLine bytes :: ts →
    decode s.params (.wire .received) (.packet bytes) = .error e → step s = .next (rxLine { s with agenda := ts } bytes))

/-! ### The frame decoder -/

/-- R122, R123 and R124: in ReadingHeader a marker before the third raises `match`, the third enters ReadingParameters with both
counters clear, and any other byte is discarded and clears `match`; nothing else changes. -/
def Obligations.HeaderScanCountsMarkers : Prop :=
  ∀ (s : State) (b : Byte) (rest : List RxItem), Reading s b rest → s.fsm = .rh →
    (b = 0x1B → s.matchCount.val < 2 →
      exec .rhMark s = .next { s with rxIn := rest, matchCount := s.matchCount + 1 } ∧
      exec (.rxiByte b) s = .next { s with rxIn := rest, matchCount := s.matchCount + 1 }) ∧
    (b = 0x1B → s.matchCount = 2 →
      exec .rhMark3 s = .next { s with rxIn := rest, matchCount := 0, pcount := 0, fsm := .rp } ∧
      exec (.rxiByte b) s = .next { s with rxIn := rest, matchCount := 0, pcount := 0, fsm := .rp }) ∧
    (b ≠ 0x1B →
      exec (.rhOther b) s = .next { s with rxIn := rest, matchCount := 0 } ∧
      exec (.rxiByte b) s = .next { s with rxIn := rest, matchCount := 0 })

/-- R125: parameter bytes 1 to 6 are stored at index `pcount`, markers among them. -/
def Obligations.ParameterByteIsStored : Prop :=
  ∀ (s : State) (b : Byte) (rest : List RxItem) (h : s.pcount.val < 6), Reading s b rest → s.fsm = .rp →
    exec (.rpByte b) s = .next { s with rxIn := rest, pbuf := s.pbuf.set s.pcount.val b h, pcount := s.pcount + 1 } ∧
    exec (.rxiByte b) s = .next { s with rxIn := rest, pbuf := s.pbuf.set s.pcount.val b h, pcount := s.pcount + 1 }

/-- R126 with R127 and R128: the seventh byte decodes the block, flushes the withheld markers, checks the opcode, and goes on by
the length. -/
def Obligations.SeventhByteDecodesBlock : Prop :=
  ∀ (s : State) (b : Byte) (rest : List RxItem), Reading s b rest → s.fsm = .rp → s.pcount = 6 →
    s.dataOut.length + (withheld s.ds).length ≤ s.params.dataqDepth →
    exec (.rpLast b) s = .next { s with
      rxIn := rest
      hdrRsv := s.pbuf[0], hdrSeq := be16 s.pbuf[1] s.pbuf[2], hdrOp := s.pbuf[3], hdrDest := s.pbuf[4]
      hdrLen := be16 s.pbuf[5] b, pcount := 0, ds := .normal, dataOut := s.dataOut ++ withheld s.ds
      anom := if s.pbuf[3] ∈ s.params.catalog then s.anom else s.anom ||| 0x01
      fsm := if be16 s.pbuf[5] b = 0 then .rh else .rd
      dcount := if be16 s.pbuf[5] b = 0 then s.dcount else 0
      acc := if be16 s.pbuf[5] b = 0 then s.acc else [] } ∧
    exec (.rxiByte b) s = exec (.rpLast b) s

/-- R127: at length 0 the decoder returns to ReadingHeader, with no completion. -/
def Obligations.EmptyPacketReturnsToHeader : Prop :=
  ∀ (s : State) (b : Byte) (rest : List RxItem), Reading s b rest → s.fsm = .rp → s.pcount = 6 →
    be16 s.pbuf[5] b = 0 → s.dataOut.length + (withheld s.ds).length ≤ s.params.dataqDepth →
    exec (.pktEmpty b) s = .next { s with
      rxIn := rest
      hdrRsv := s.pbuf[0], hdrSeq := be16 s.pbuf[1] s.pbuf[2], hdrOp := s.pbuf[3], hdrDest := s.pbuf[4]
      hdrLen := 0, pcount := 0, ds := .normal, dataOut := s.dataOut ++ withheld s.ds
      anom := if s.pbuf[3] ∈ s.params.catalog then s.anom else s.anom ||| 0x01
      fsm := .rh } ∧
    exec (.rpLast b) s = exec (.pktEmpty b) s

/-- R132, with R133, R135 and R136 at the last byte: control bytes accumulate as they are, and the record is posted whole. -/
def Obligations.ControlByteAccumulates : Prop :=
  ∀ (s : State) (b : Byte) (rest : List RxItem), Reading s b rest → s.fsm = .rd → s.hdrOp ≠ s.params.opData →
    (s.dcount + 1 = s.hdrLen → s.crq.length < s.params.crqDepth) →
    (s.dcount + 1 = s.hdrLen → s.params.ackAll = true → s.ackq.length < s.params.ackqDepth) →
    exec (.rdCtrl b) s = .next (afterCtrlByte s rest b) ∧ exec (.rxiByte b) s = .next (afterCtrlByte s rest b)

/-- R131: a payload byte of a data packet goes through the de-stuffer, and is counted. -/
def Obligations.DataByteIsDestuffed : Prop :=
  ∀ (s : State) (b : Byte) (rest : List RxItem), ReadingData s s.ds b rest →
    s.dataOut.length + (destuff s.params.litSentinel s.ds b).2.length ≤ s.params.dataqDepth →
    exec (.rdData b) s = .next
      (afterDataByte s rest (destuff s.params.litSentinel s.ds b).1 (destuff s.params.litSentinel s.ds b).2) ∧
    exec (.rxiByte b) s = exec (.rdData b) s

/-- R220 and R221: a completing data packet requests its ACK with the wire length, and a request past the bound flags OUTS and
is pushed all the same; with `max_out = 0` no check is made. -/
def Obligations.CompletionRequestsAck : Prop :=
  ∀ (s t : State) (b : Byte) (rest : List RxItem), ReadingData s s.ds b rest → s.dcount + 1 = s.hdrLen →
    s.dataOut.length + 2 ≤ s.params.dataqDepth → exec (.rxiByte b) s = .next t →
    t.ackq = s.ackq ++ [{ seq := s.hdrSeq, len := s.hdrLen }] ∧ t.crq = s.crq ∧
    (s.maxOut = 0 → t.anom = s.anom) ∧
    (s.maxOut ≠ 0 → t.anom = if s.maxOut.toNat < s.ackq.length + 1 then s.anom ||| 0x02 else s.anom)

/-- R137: an EOF ends the reader flow, flags EOF and leaves everything else as it was. -/
def Obligations.EofEndsReader : Prop :=
  ∀ (s : State) (rest : List RxItem), s.rxLive = true → s.rxIn = .eof :: rest →
    exec .rxiEof s = .next { s with rxIn := rest, rxLive := false, anom := s.anom ||| 0x10 }

/-- R138: while the reader is stopped no row of the RX engine has a step, and of a packet that arrives every byte stays in `rx_in`.
That a row without a step answers with the unchanged state is the model's form (log entry 4), and so is a packet row that
receives (log entry 6). -/
def Obligations.StoppedReaderIsHeld : Prop :=
  (∀ (s : State) (i : Instr), s.rxLive = false → ofRxEngine i = true → exec i s = .next s) ∧
  (∀ (s : State) (rsv : Byte) (seq : Word) (op dest : Byte) (body : List Byte), s.rxLive = false →
    exec (.pktData .received rsv seq dest body) s = .next
      { s with rxIn := s.rxIn ++ (wireBytes rsv seq s.params.opData dest body).map .byte } ∧
    exec (.pktCtrl .received rsv seq op dest body) s = .next
      { s with rxIn := s.rxIn ++ (wireBytes rsv seq op dest body).map .byte }) ∧
  (∀ (s : State) (seq rseq rlen : Word), s.rxLive = false →
    exec (.pktAck .received seq rseq rlen) s = .next
      { s with rxIn := s.rxIn ++
          (wireBytes 0x00 seq s.params.opAck s.params.ackDest [hi8 rseq, lo8 rseq, hi8 rlen, lo8 rlen]).map .byte })

/-- R120 and R11: a step whose output does not fit is held, and nothing changes: three cases of `data_out`, one each of `ackq`
and `crq`, and the flush. That a held step answers with the unchanged state is the model's form (log entry 4). -/
def Obligations.FullQueueHoldsReader : Prop :=
  ∀ (s : State) (b : Byte) (rest : List RxItem), Reading s b rest →
    (s.fsm = .rd → s.hdrOp = s.params.opData → s.ds = .normal → b ≠ 0x1B → s.params.dataqDepth ≤ s.dataOut.length →
      exec (.rxiByte b) s = .next s) ∧
    (s.fsm = .rd → s.hdrOp = s.params.opData → s.ds = .saw1 → b ≠ 0x1B → s.params.dataqDepth < s.dataOut.length + 2 →
      exec (.rxiByte b) s = .next s) ∧
    (s.fsm = .rd → s.hdrOp = s.params.opData → s.ds = .saw2 → b = s.params.litSentinel →
      s.params.dataqDepth < s.dataOut.length + 2 → exec (.rxiByte b) s = .next s) ∧
    (s.fsm = .rd → s.hdrOp = s.params.opData ∨ s.params.ackAll = true → s.dcount + 1 = s.hdrLen →
      s.params.ackqDepth ≤ s.ackq.length →
      exec (.rxiByte b) s = .next s) ∧
    (s.fsm = .rd → s.hdrOp ≠ s.params.opData → s.dcount + 1 = s.hdrLen → s.params.crqDepth ≤ s.crq.length →
      exec (.rxiByte b) s = .next s) ∧
    (s.fsm = .rp → s.pcount = 6 → s.params.dataqDepth < s.dataOut.length + (withheld s.ds).length → s.ds ≠ .normal →
      exec (.rxiByte b) s = .next s)

/-- R120's dispatch: in every state, the RX engine's step on a byte is the step of the row that the tables of R120 and R160
select, whichever of the two layers names it. -/
def Obligations.ByteStepIsItsRow : Prop :=
  ∀ (s : State) (b : Byte), exec (.rxiByte b) s = exec (decodeFrameRow s.params s.view b) s ∧
    exec (.rxiByte b) s = exec (decodeOutcomeRow s.params s.view b) s

/-! ### The de-stuffer -/

/-- R161 and R162: in Normal a marker is withheld and any other byte, the sentinel among them, is emitted. -/
def Obligations.NormalWithholdsOnlyMarkers : Prop :=
  ∀ (s : State) (b : Byte) (rest : List RxItem), ReadingData s .normal b rest →
    (b = 0x1B →
      exec .dsNMark s = .next (afterDataByte s rest .saw1 []) ∧
      exec (.rxiByte b) s = .next (afterDataByte s rest .saw1 [])) ∧
    (b ≠ 0x1B → s.dataOut.length + 1 ≤ s.params.dataqDepth →
      exec (.dsNOther b) s = .next (afterDataByte s rest .normal [b]) ∧
      exec (.rxiByte b) s = .next (afterDataByte s rest .normal [b]))

/-- R163 and R164: in SawOneMarker a second marker is withheld too, and any other byte releases the first as literal data. -/
def Obligations.SawOneResolvesByNextByte : Prop :=
  ∀ (s : State) (b : Byte) (rest : List RxItem), ReadingData s .saw1 b rest →
    (b = 0x1B →
      exec .ds1Mark s = .next (afterDataByte s rest .saw2 []) ∧
      exec (.rxiByte b) s = .next (afterDataByte s rest .saw2 [])) ∧
    (b ≠ 0x1B → s.dataOut.length + 2 ≤ s.params.dataqDepth →
      exec (.ds1Other b) s = .next (afterDataByte s rest .normal [0x1B, b]) ∧
      exec (.rxiByte b) s = .next (afterDataByte s rest .normal [0x1B, b]))

/-- R165 and R166: in SawTwoMarkers the sentinel releases both markers and is not emitted, and any other byte is a status
insertion, consumed with them. The sentinel is tested first, so this holds for `LIT_SENTINEL = MARKER` too. -/
def Obligations.SawTwoResolvesBySentinel : Prop :=
  ∀ (s : State) (b : Byte) (rest : List RxItem), ReadingData s .saw2 b rest →
    (b = s.params.litSentinel → s.dataOut.length + 2 ≤ s.params.dataqDepth →
      exec (.ds2Sent b) s = .next (afterDataByte s rest .normal [0x1B, 0x1B]) ∧
      exec (.rxiByte b) s = .next (afterDataByte s rest .normal [0x1B, 0x1B])) ∧
    (b ≠ s.params.litSentinel →
      exec (.ds2Other b) s = .next (afterDataByte s rest .normal []) ∧
      exec (.rxiByte b) s = .next (afterDataByte s rest .normal []))

/-- R169, an inference of the spec's own (41_destuff.md section 4, "Token view"): a string of tokens from Normal gives the
tokens' outputs, and a tail of one or two markers is withheld. -/
def Obligations.TokensGiveTheirOutputs : Prop :=
  ∀ (sentinel : Byte) (ts : List Token), (∀ t ∈ ts, t.ok sentinel) →
    destuffAll sentinel .normal (ts.flatMap (Token.bytes sentinel)) = (.normal, ts.flatMap Token.output) ∧
    destuffAll sentinel .normal (ts.flatMap (Token.bytes sentinel) ++ [0x1B]) = (.saw1, ts.flatMap Token.output) ∧
    destuffAll sentinel .normal (ts.flatMap (Token.bytes sentinel) ++ [0x1B, 0x1B]) = (.saw2, ts.flatMap Token.output)

/-- R170, an inference of the spec's own (41_destuff.md section 4, "Inverse of stuffing"), first part: the de-stuffer inverts
the stuffing of a payload that makes one chunk, but for the last marker of an odd final run, which it withholds. -/
def Obligations.DestuffInvertsStuff : Prop :=
  ∀ (sentinel : Byte) (limit : Nat) (r w : List Byte), stuffChunks sentinel limit r = { first := w, rest := [] } →
    (markerTail r % 2 = 1 →
      ∃ out, destuffAll sentinel .normal w = (.saw1, out) ∧ r = out ++ [0x1B]) ∧
    (markerTail r % 2 = 0 → destuffAll sentinel .normal w = (.normal, r))

/-- R42, item 4, an inference of the spec's own (10_state.md section 13), step by step: a row of the RX engine leaves the
de-stuffer outside Normal only by taking in a marker byte of a data packet, or by leaving it as it was without completing a
parameter block or taking in a payload byte. -/
def Obligations.WithheldMarkersComeFromData : Prop :=
  ∀ (s t : State) (b : Byte), exec (.rxiByte b) s = .next t → t.ds ≠ .normal →
    (s.fsm = .rd ∧ s.hdrOp = s.params.opData ∧ b = 0x1B) ∨ (t.ds = s.ds ∧ (t = s ∨ s.fsm = .rh ∨
      (s.fsm = .rp ∧ s.pcount ≠ 6) ∨ (s.fsm = .rd ∧ s.hdrOp ≠ s.params.opData)))

/-! ### Whole packets received -/

/-- R126, R132, R133, R135, R136 over a whole packet: a control packet with a payload posts one record and makes no ACK request
(`ACK_ALL = false`). -/
def Obligations.ControlPacketIsPosted : Prop :=
  ∀ (s : State) (rsv : Byte) (seq : Word) (op dest : Byte) (body : List Byte),
    Waiting s → s.params.ackAll = false → op ≠ s.params.opData → body ≠ [] → body.length ≤ 65535 →
    s.dataOut.length + (withheld s.ds).length ≤ s.params.dataqDepth → s.crq.length < s.params.crqDepth →
    exec (.pktCtrl .received rsv seq op dest body) s = .next
      { afterBlock s rsv seq op dest (BitVec.ofNat 16 body.length) with
        dcount := 0, acc := [], lastOp := op, lastOpValid := true
        crq := s.crq ++ [{ seq := seq, op := op, dest := dest, payload := body }] }

/-- R224: an ACK packet of the peer is a control packet like any other: one record, nothing more (`ACK_ALL = false`). -/
def Obligations.ReceivedAckIsPosted : Prop :=
  ∀ (s : State) (seq rseq rlen : Word),
    Waiting s → s.params.valid → s.params.ackAll = false →
    s.dataOut.length + (withheld s.ds).length ≤ s.params.dataqDepth → s.crq.length < s.params.crqDepth →
    exec (.pktAck .received seq rseq rlen) s = .next
      { afterBlock s 0x00 seq s.params.opAck s.params.ackDest 4 with
        dcount := 0, acc := [], lastOp := s.params.opAck, lastOpValid := true
        crq := s.crq ++ [{ seq := seq, op := s.params.opAck, dest := s.params.ackDest,
                           payload := [hi8 rseq, lo8 rseq, hi8 rlen, lo8 rlen] }] }

/-- R126, R131, R133, R134, R136, R167 over a whole packet: a data packet delivers the markers withheld before it and then its
de-stuffed payload, keeps its own trailing markers withheld, and requests its ACK with its wire length. -/
def Obligations.DataPacketIsDelivered : Prop :=
  ∀ (s : State) (rsv : Byte) (seq : Word) (dest : Byte) (body : List Byte),
    Waiting s → body ≠ [] → body.length ≤ 65535 →
    s.dataOut.length + (withheld s.ds).length + (destuffAll s.params.litSentinel .normal body).2.length ≤
      s.params.dataqDepth →
    s.ackq.length < s.params.ackqDepth →
    exec (.pktData .received rsv seq dest body) s = .next
      { afterBlock s rsv seq s.params.opData dest (BitVec.ofNat 16 body.length) with
        dcount := 0, acc := [], lastOp := s.params.opData, lastOpValid := true
        ds := (destuffAll s.params.litSentinel .normal body).1
        dataOut := s.dataOut ++ withheld s.ds ++ (destuffAll s.params.litSentinel .normal body).2
        ackq := s.ackq ++ [{ seq := seq, len := BitVec.ofNat 16 body.length }]
        anom := anomAfterRequest
          (afterBlock s rsv seq s.params.opData dest (BitVec.ofNat 16 body.length)) }

/-- R126 and R127 over a whole packet: an empty packet of any opcode, the data opcode and `OP_ACK` among them, latches its header
and flushes the withheld markers; it posts nothing, requests no ACK and leaves `last_op`. -/
def Obligations.EmptyPacketIsLatched : Prop :=
  ∀ (s : State) (rsv : Byte) (seq : Word) (op dest : Byte),
    Waiting s → s.dataOut.length + (withheld s.ds).length ≤ s.params.dataqDepth →
    exec (.pktCtrl .received rsv seq op dest []) s = .next (afterBlock s rsv seq op dest 0) ∧
    exec (.pktData .received rsv seq dest []) s = .next (afterBlock s rsv seq s.params.opData dest 0)

/-- R71, an inference of the spec's own (20_memory.md section 4): the result does not depend on how the transport divides the
bytes into reads. -/
def Obligations.SplitReadsAgree : Prop :=
  ∀ (s : State) (reads : List (List Byte)), reads.foldl rxLine s = rxLine s reads.flatten

/-- R94 and R65, over the model's agenda (log entry 2): the script line `RX` is exactly one delivery followed by one RX engine
step per byte, each a step of its own. -/
def Obligations.RxLineIsItsSteps : Prop :=
  ∀ (s : State) (bytes : List Byte),
    Sys2Proof.core.run (bytes.length + 1)
      { s with agenda := .deliver (bytes.map .byte) :: List.replicate bytes.length .rxEngine } =
    .next (rxLine { s with agenda := [] } bytes)

/-- R141, an inference of the spec's own (40_decoder.md section 7, "Resynchronisation"), the sufficient condition: garbage
without three markers in a row that does not end in a marker leaves no trace. -/
def Obligations.CleanGarbageLeavesNoTrace : Prop :=
  ∀ (s : State) (g : List Byte), Waiting s → (∀ pre post, g ≠ pre ++ [0x1B, 0x1B, 0x1B] ++ post) →
    g.getLast? ≠ some 0x1B → rxLine s g = s

/-- R142, an inference of the spec's own (40_decoder.md section 7, "Misframing by a leading marker"): one marker before a packet
misframes it. -/
def Obligations.LeadingMarkerMisframes : Prop :=
  ∀ s : State, Waiting s → s.dataOut.length + (withheld s.ds).length ≤ s.params.dataqDepth →
    rxLine s [0x1B, 0x1B, 0x1B, 0x1B, 0x00, 0x00, 0x07, s.params.opData, 0x00, 0x00, 0x01, 0x41] =
      { s with
        pbuf := #v[0x1B, 0x00, 0x00, 0x07, s.params.opData, 0x00], pcount := 0, ds := .normal
        hdrRsv := 0x1B, hdrSeq := 0x0000, hdrOp := 0x07, hdrDest := s.params.opData, hdrLen := 0x0000
        dataOut := s.dataOut ++ withheld s.ds
        anom := if 0x07 ∈ s.params.catalog then s.anom else s.anom ||| 0x01 }

/-! ### The TX engine -/

/-- R225: the ACK packet of the oldest request goes out, with the next sequence number. -/
def Obligations.AckPacketIsEmitted : Prop :=
  ∀ (s : State) (r : AckReq) (rs : List AckReq), s.txLive = true → s.ackq = r :: rs →
    exec (.pktAck .sent s.txSeq r.seq r.len) s = .next { s with
      ackq := rs
      txOut := s.txOut ++ packet s.txSeq s.params.opAck s.params.ackDest [hi8 r.seq, lo8 r.seq, hi8 r.len, lo8 r.len]
      txSeq := nextseq s.txSeq } ∧
    exec .txStep s = exec (.pktAck .sent s.txSeq r.seq r.len) s

/-- R180, the current command: its next chunk goes out, as a data packet or a control packet by its opcode. -/
def Obligations.CurrentChunkIsEmitted : Prop :=
  ∀ (s : State) (op dest : Byte) (c : List Byte) (cs : List (List Byte)),
    s.txLive = true → s.ackq = [] → s.cur = some { op := op, dest := dest, chunks := { first := c, rest := cs } } →
    exec .txStep s = .next { s with
      cur := match cs with
        | [] => none
        | d :: ds => some { op := op, dest := dest, chunks := { first := d, rest := ds } }
      txOut := s.txOut ++ packet s.txSeq op dest c
      txSeq := nextseq s.txSeq } ∧
    (op = s.params.opData → exec (.pktData .sent 0x00 s.txSeq dest c) s = exec .txStep s) ∧
    (op ≠ s.params.opData → exec (.pktCtrl .sent 0x00 s.txSeq op dest c) s = exec .txStep s)

/-- R180, the next command: it leaves `txq`, is packetized, and its first packet goes out. Only the data opcode is stuffed, and
every other payload is cut into plain chunks (R183, R90). -/
def Obligations.NextCommandIsStarted : Prop :=
  ∀ (s : State) (op dest : Byte) (payload c : List Byte) (cs : List (List Byte)) (qs : List SendCmd),
    s.txLive = true → s.ackq = [] → s.cur = none → s.txq = { op := op, dest := dest, payload := payload } :: qs →
    packetize s.params op payload = { first := c, rest := cs } →
    exec .txStep s = .next { s with
      txq := qs
      cur := match cs with
        | [] => none
        | d :: ds => some { op := op, dest := dest, chunks := { first := d, rest := ds } }
      txOut := s.txOut ++ packet s.txSeq op dest c
      txSeq := nextseq s.txSeq } ∧
    (op = s.params.opData → exec (.pktData .sent 0x00 s.txSeq dest c) s = exec .txStep s) ∧
    (op ≠ s.params.opData → exec (.pktCtrl .sent 0x00 s.txSeq op dest c) s = exec .txStep s) ∧
    (op = s.params.opData →
      packetize s.params op payload = stuffChunks s.params.litSentinel s.params.maxPayload payload) ∧
    (op ≠ s.params.opData → packetize s.params op payload = plainChunks s.params.maxPayload payload)

/-- R22 and R180: with a dead writer, or nothing to send, no row of the TX engine has a step. That such a row answers with the
unchanged state is the model's form (log entry 4). -/
def Obligations.DeadOrIdleWriterIsHeld : Prop :=
  ∀ (s : State) (i : Instr), s.txLive = false ∨ TxIdle s → ofTxEngine i = true → exec i s = .next s

/-- R182: the sequence counter wraps from 0xFFFE to 0, and 0xFFFF is not reached. -/
def Obligations.SequenceSkipsFfff : Prop :=
  nextseq 0xFFFE = 0x0000 ∧ ∀ x : Word, x.toNat < 0xFFFE → (nextseq x).toNat = x.toNat + 1

/-- R183: plain chunks are the payload cut into pieces of exactly the limit, the last of 1 to limit bytes; an empty payload is
one empty body. -/
def Obligations.PlainChunksCutPayload : Prop :=
  ∀ (limit : Nat) (p : List Byte), 1 ≤ limit →
    (plainChunks limit p).toList.flatten = p ∧
    (∀ c ∈ (plainChunks limit p).toList.dropLast, c.length = limit) ∧
    (∀ c, (plainChunks limit p).toList.getLast? = some c → c.length ≤ limit ∧ (p ≠ [] → 1 ≤ c.length)) ∧
    (plainChunks limit []).toList = [[]]

/-- R184 and R185: every chunk fits, every chunk but the last is full but for at most one byte, and none is empty unless the
payload is. -/
def Obligations.StuffedChunksFit : Prop :=
  ∀ (sentinel : Byte) (limit : Nat) (p : List Byte), 2 ≤ limit →
    (∀ c ∈ (stuffChunks sentinel limit p).toList, c.length ≤ limit ∧ (p ≠ [] → c ≠ [])) ∧
    (∀ c ∈ (stuffChunks sentinel limit p).toList.dropLast, limit - 1 ≤ c.length) ∧
    (stuffChunks sentinel limit []).toList = [[]]

/-- R185, an inference of the spec's own (42_encoder.md section 3, "Chunk count"): how many packets a command makes. -/
def Obligations.ChunkCountBounds : Prop :=
  ∀ (sentinel : Byte) (limit : Nat) (p : List Byte), 4 ≤ limit →
    (plainChunks limit p).toList.length = max 1 ((p.length + limit - 1) / limit) ∧
    ((stuffChunks sentinel limit p).toList.length = 1 ↔ (stuffWhole sentinel p).length ≤ limit) ∧
    max 1 ((p.length + limit - 1) / limit) ≤ (stuffChunks sentinel limit p).toList.length ∧
    (stuffChunks sentinel limit p).toList.length ≤ max 1 (1 + ((stuffWhole sentinel p).length - 1) / (limit - 1))

/-- R68 and R186, the second an inference of the spec's own (42_encoder.md section 3): in a state that meets the invariants, a
step of the TX engine writes nothing, or exactly one packet, whole and contiguous, of at most `MAX_PACKET` bytes, whose length
field is its body's length. R80, R181 and R62: a packet is its ten header bytes, each number most significant byte first, and
its body, and the receiver's `be16` reads the same order (R8). -/
def Obligations.OnePacketPerTxStep : Prop :=
  (∀ (s t : State), Legal s → exec .txStep s = .next t →
    t = s ∨ ∃ op dest body, t.txOut = s.txOut ++ packet s.txSeq op dest body ∧
      (packet s.txSeq op dest body).length ≤ s.params.maxPacket ∧ body.length ≤ s.params.maxPayload ∧
      (be16 (hi8 (BitVec.ofNat 16 body.length)) (lo8 (BitVec.ofNat 16 body.length))).toNat = body.length) ∧
  (∀ (rsv : Byte) (seq : Word) (op dest : Byte) (body : List Byte), body.length ≤ 65535 →
    wireBytes rsv seq op dest body =
      [0x1B, 0x1B, 0x1B, rsv, BitVec.ofNat 8 (seq.toNat / 256), BitVec.ofNat 8 (seq.toNat % 256), op, dest,
        BitVec.ofNat 8 (body.length / 256), BitVec.ofNat 8 (body.length % 256)] ++ body ∧
    packet seq op dest body = wireBytes 0x00 seq op dest body) ∧
  (∀ v : Word, (hi8 v).toNat = v.toNat / 256 ∧ (lo8 v).toNat = v.toNat % 256) ∧
  (∀ a b : Byte, (be16 a b).toNat = a.toNat * 256 + b.toNat)

/-- R188, an inference of the spec's own (42_encoder.md section 5, "Sequence wrap"), and 70_reset_and_hazards.md R315, step 3:
with a live writer every step of the TX engine sends one pending packet and takes one sequence number, modulo 0xFFFF, and after
exactly as many steps as packets are pending the engine is idle. -/
def Obligations.TxEngineDrains : Prop :=
  ∀ (s : State) (k : Nat), s.txLive = true → s.txSeq.toNat ≤ 0xFFFE → k ≤ pending s →
    pending (txTurns k s) = pending s - k ∧
    (txTurns k s).txSeq.toNat = (s.txSeq.toNat + k) % 0xFFFF ∧
    (pending s = k → TxIdle (txTurns k s)) ∧
    (k < pending s → ∃ op dest body, (txTurns (k + 1) s).txOut =
      (txTurns k s).txOut ++ packet (BitVec.ofNat 16 ((s.txSeq.toNat + k) % 0xFFFF)) op dest body)

/-- R226, an inference of the spec's own (43_ack_tracker.md section 3, "ACK emission count"): one complete data packet of
sequence number 7 and length 4, received while nothing is pending, makes exactly one ACK packet, with payload 00 07 00 04. -/
def Obligations.OneAckPerDataPacket : Prop :=
  ∀ (s : State) (rsv dest : Byte) (body : List Byte),
    Waiting s → s.ds = .normal → s.txLive = true → TxIdle s → body.length = 4 →
    s.dataOut.length + 4 ≤ s.params.dataqDepth → 1 ≤ s.params.ackqDepth →
    ∃ t u, exec (.pktData .received rsv 7 dest body) s = .next t ∧ exec .txStep t = .next u ∧
      u.txOut = s.txOut ++ packet s.txSeq s.params.opAck s.params.ackDest [0x00, 0x07, 0x00, 0x04] ∧
      u.txSeq = nextseq s.txSeq ∧ TxIdle u

/-- R189, an inference of the spec's own (42_encoder.md section 5, "Framing round-trip"): the packets that the encoder makes of
a payload, with any sequence numbers, bring the payload back through the decoder, but for a final unpaired marker, which stays
withheld. -/
def Obligations.FramingRoundTrip : Prop :=
  ∀ (s : State) (p : List Byte) (dest : Byte) (ps : List (Word × List Byte)),
    s.params.valid → Waiting s → s.ds = .normal →
    ps.map Prod.snd = (packetize s.params s.params.opData p).toList →
    s.dataOut.length + p.length ≤ s.params.dataqDepth → s.ackq.length + ps.length ≤ s.params.ackqDepth →
    ∃ t, ps.foldl (fun u q => rxLine u (packet q.1 s.params.opData dest q.2)) s = t ∧ Waiting t ∧
      (if endsUnpaired s.params.litSentinel s.params.maxPayload [] false p = true then
        t.ds = .saw1 ∧ t.dataOut ++ [0x1B] = s.dataOut ++ p
      else t.ds = .normal ∧ t.dataOut = s.dataOut ++ p)

/-! ### Host commands

Each statement is about a command that stands at the head of `cmd_in`, from where the step runs it (R249, log entry 17). Its
response joins the log of the responses given, the model's form of the port's answer (log entry 3). -/

/-- R240 and R241: a SEND is queued while the writer is live and `txq` has room, and held while it is full; once the writer path
has failed it is answered NOT_OPEN at once, full queue or not, and queues nothing. That a held command answers with the unchanged
state is the model's form (log entry 4). -/
def Obligations.SendIsQueuedHeldOrTurnedAway : Prop :=
  ∀ (s : State) (op dest : Byte) (payload : List Byte) (rest : List HostCommand), Issued s (.cmdSend op dest payload) rest →
    (s.txLive = true → s.txq.length < s.params.txqDepth →
      exec (.cmdSend op dest payload) s = .next { s with
        txq := s.txq ++ [{ op := op, dest := dest, payload := payload }]
        cmdIn := rest, rspOut := s.rspOut ++ [{ code := .ok, value := .none }] }) ∧
    (s.txLive = true → s.params.txqDepth ≤ s.txq.length → exec (.cmdSend op dest payload) s = .next s) ∧
    (s.txLive = false →
      exec (.cmdSend op dest payload) s = .next { s with
        anom := s.anom ||| 0x04
        cmdIn := rest, rspOut := s.rspOut ++ [{ code := .notOpen, value := .none }] })

/-- R242 and R243: STOP_RX stops the reader and SET_MAX_OUT writes the bound; each answers OK and changes nothing else. -/
def Obligations.SessionCommandsWriteOneField : Prop :=
  ∀ (s : State) (v : Word) (rest : List HostCommand),
    (Issued s .cmdStopRx rest → exec .cmdStopRx s = .next { s with
      rxLive := false, cmdIn := rest, rspOut := s.rspOut ++ [{ code := .ok, value := .none }] }) ∧
    (Issued s (.cmdSetMaxOut v) rest → exec (.cmdSetMaxOut v) s = .next { s with
      maxOut := v, cmdIn := rest, rspOut := s.rspOut ++ [{ code := .ok, value := .none }] })

/-- R245 and R246: a POP takes the oldest element and returns it; of an empty queue it answers EMPTY, with byte 0x00 or none. -/
def Obligations.PopsTakeTheOldest : Prop :=
  ∀ (s : State) (rest : List HostCommand),
    (Issued s .cmdPopData rest →
      (∀ b bs, s.dataOut = b :: bs → exec .cmdPopData s = .next { s with
        dataOut := bs, cmdIn := rest, rspOut := s.rspOut ++ [{ code := .ok, value := .byte b }] }) ∧
      (s.dataOut = [] → exec .cmdPopData s = .next { s with
        cmdIn := rest, rspOut := s.rspOut ++ [{ code := .empty, value := .byte 0x00 }] })) ∧
    (Issued s .cmdPopCtrl rest →
      (∀ r rs, s.crq = r :: rs → exec .cmdPopCtrl s = .next { s with
        crq := rs, cmdIn := rest, rspOut := s.rspOut ++ [{ code := .ok, value := .record r }] }) ∧
      (s.crq = [] → exec .cmdPopCtrl s = .next { s with
        cmdIn := rest, rspOut := s.rspOut ++ [{ code := .empty, value := .none }] }))

/-- R244: the bits of the mask are cleared, no others, and nothing else changes. R282: the interrupt is up exactly while some bit
of `anom` is set, and so it falls when none is left. -/
def Obligations.ClearAnomClearsMask : Prop :=
  (∀ (s : State) (mask : Byte) (rest : List HostCommand), Issued s (.cmdClearAnom mask) rest →
    exec (.cmdClearAnom mask) s = .next { s with
      anom := s.anom &&& ~~~mask, cmdIn := rest, rspOut := s.rspOut ++ [{ code := .ok, value := .none }] } ∧
    (∀ t, exec (.cmdClearAnom mask) s = .next t →
      (∀ k : Fin 8, t.anom[k] = (s.anom[k] && !mask[k])) ∧
      (t.irq = true ↔ ∃ k : Fin 8, s.anom[k] = true ∧ mask[k] = false))) ∧
  (∀ s : State, (s.irq = true ↔ s.anom ≠ 0) ∧ (s.irq = true ↔ ∃ k : Fin 8, s.anom[k] = true))

/-- R247 with R39: the response is the status vector, field by field, and nothing else changes. S14 has 16 bits, and of a count
that they do not hold nothing is said (log entry 10). -/
def Obligations.ReadStatusReturnsVector : Prop :=
  ∀ (s : State) (rest : List HostCommand), Issued s .cmdReadStatus rest → ∃ v : StatusVector,
    exec .cmdReadStatus s = .next { s with
      cmdIn := rest, rspOut := s.rspOut ++ [{ code := .ok, value := .status v }] } ∧
    (v.fsm.toNat = match s.fsm with | .rh => 0 | .rp => 1 | .rd => 2) ∧
    v.matchCount.toNat = s.matchCount.val ∧ v.pcount.toNat = s.pcount.val ∧
    (v.ds.toNat = match s.ds with | .normal => 0 | .saw1 => 1 | .saw2 => 2) ∧
    v.dcount = s.dcount ∧ v.hdrRsv = s.hdrRsv ∧ v.hdrSeq = s.hdrSeq ∧ v.hdrOp = s.hdrOp ∧ v.hdrDest = s.hdrDest ∧
    v.hdrLen = s.hdrLen ∧ v.lastOp = s.lastOp ∧ v.lastOpValid = s.lastOpValid ∧ v.txSeq = s.txSeq ∧
    v.maxOut = s.maxOut ∧ (s.ackq.length ≤ 65535 → v.outstanding.toNat = s.ackq.length) ∧
    v.dataLevel = s.dataOut.length ∧ v.ctrlLevel = s.crq.length ∧ v.txqLevel = s.txq.length ∧
    (v.txBusy = true ↔ s.cur ≠ none) ∧ v.rxLive = s.rxLive ∧ v.txLive = s.txLive ∧ v.anom = s.anom ∧
    (v.irq = true ↔ s.anom ≠ 0)

/-- R248. -/
def Obligations.ReservedKindIsBadCmd : Prop :=
  ∀ (s : State) (rest : List HostCommand), Issued s .cmdReserved rest → exec .cmdReserved s = .next { s with
    anom := s.anom ||| 0x08, cmdIn := rest, rspOut := s.rspOut ++ [{ code := .badCmd, value := .none }] }

/-! ### Events, reset and the whole machine -/

/-- R283: LINK_ERR ends both flows, discards what could still have been sent, keeps the rest; a second one changes nothing. -/
def Obligations.LinkErrEndsBothFlows : Prop :=
  ∀ s : State, ∃ t,
    exec .linkErr s = .next t ∧
    t = { s with rxLive := false, txLive := false, txq := [], cur := none, ackq := [], anom := s.anom ||| 0x20 } ∧
    exec .linkErr t = .next t

/-- R310 with R43: RESET gives every field of the block its reset value and empties `rx_in`; `tx_out` stays. That the commands,
the responses and the agenda stay too is the model's choice (log entry 3); that `rx_in` is emptied follows R310 where R20 says
otherwise (log entry 12). -/
def Obligations.ResetRestoresEveryField : Prop :=
  ∀ s : State, exec .reset s = .next
    { params := s.params, rxLive := true, txLive := true, fsm := .rh, matchCount := 0, pcount := 0
      pbuf := #v[0, 0, 0, 0, 0, 0], hdrRsv := 0, hdrSeq := 0, hdrOp := 0, hdrDest := 0, hdrLen := 0, dcount := 0
      acc := [], ds := .normal, lastOp := 0, lastOpValid := false, txSeq := s.params.seqInit, txq := [], cur := none
      ackq := [], maxOut := 0, dataOut := [], crq := [], anom := 0, rxIn := []
      txOut := s.txOut, cmdIn := s.cmdIn, rspOut := s.rspOut, agenda := s.agenda }

/-- R43: the reset value of every field. R310: RESET in the reset state changes nothing. -/
def Obligations.ResetStateHasResetValues : Prop :=
  State.reset.rxLive = true ∧ State.reset.txLive = true ∧ State.reset.fsm = .rh ∧ State.reset.matchCount = 0 ∧
  State.reset.pcount = 0 ∧ State.reset.pbuf = #v[0, 0, 0, 0, 0, 0] ∧ State.reset.hdrRsv = 0 ∧ State.reset.hdrSeq = 0 ∧
  State.reset.hdrOp = 0 ∧ State.reset.hdrDest = 0 ∧ State.reset.hdrLen = 0 ∧ State.reset.dcount = 0 ∧
  State.reset.acc = [] ∧ State.reset.ds = .normal ∧ State.reset.lastOp = 0 ∧ State.reset.lastOpValid = false ∧
  State.reset.txSeq = 0 ∧ State.reset.txq = [] ∧ State.reset.cur = none ∧ State.reset.ackq = [] ∧
  State.reset.maxOut = 0 ∧ State.reset.dataOut = [] ∧ State.reset.crq = [] ∧ State.reset.anom = 0 ∧
  exec .reset State.reset = .next State.reset

/-- The invariants of R42, an inference of the spec's own (10_state.md section 13), hold after reset. -/
def Obligations.ResetMeetsInvariants : Prop := Legal State.reset

/-- R42, an inference of the spec's own (10_state.md section 13): every step of every agent keeps the invariants, under every
interleaving and every input. -/
def Obligations.StepKeepsInvariants : Prop :=
  ∀ s t : State, Legal s → step s = .next t → Legal t

/-- R140, an inference of the spec's own (40_decoder.md section 7, "Totality"), and R280: no step faults and none is refused, in
any state. -/
def Obligations.EveryStepGoesOn : Prop :=
  (∀ s : State, ∃ t, step s = .next t) ∧ ∀ (i : Instr) (s : State), ∃ t, exec i s = .next t

/-- R20 and R65: nothing writes the parameters, an instruction does not touch the agenda, and a step takes one turn off it.
The two fields are the model's own (log entries 1 and 2). -/
def Obligations.ParametersAndAgendaAreKept : Prop :=
  (∀ (i : Instr) (s t : State), exec i s = .next t → t.params = s.params ∧ t.agenda = s.agenda) ∧
  (∀ s t : State, step s = .next t → t.params = s.params ∧ t.agenda = s.agenda.tail)

/-- R21, R22 and R312: a flow that has ended stays ended until RESET, and only LINK_ERR ends the writer flow. -/
def Obligations.OnlyResetRevivesAFlow : Prop :=
  ∀ (i : Instr) (s t : State), exec i s = .next t →
    (s.rxLive = false → t.rxLive = true → i = .reset) ∧ (s.txLive = false → t.txLive = true → i = .reset) ∧
    (s.txLive = true → t.txLive = false → i = .linkErr)

/-- R37 and R281: a set anomaly bit falls only by CLEAR_ANOM, with its mask bit set, or by RESET, and the reserved bits are
never set by anything. -/
def Obligations.AnomalyBitsAreSticky : Prop :=
  ∀ (i : Instr) (s t : State) (k : Fin 8), exec i s = .next t →
    (s.anom[k] = true → t.anom[k] = false → i = .reset ∨ ∃ mask : Byte, i = .cmdClearAnom mask ∧ mask[k] = true) ∧
    (6 ≤ k.val → s.anom[k] = false → t.anom[k] = false)

/-- R67 and R69: the wire log only grows, and only the TX engine grows it. -/
def Obligations.WireLogIsAppendOnly : Prop :=
  ∀ (i : Instr) (s t : State), exec i s = .next t →
    (∃ xs, t.txOut = s.txOut ++ xs) ∧ (ofTxEngine i = false → t.txOut = s.txOut)

/-- R69 and R290: each agent keeps to its own queues. The RX engine leaves everything of the transmit side but `ackq`, to which
it only appends; the TX engine leaves everything of the receive side; a host command leaves the decoder, `rx_in`, `ackq` and
the wire; of the commands only POP_DATA takes from `data_out` and only POP_CTRL from `crq`, from the front, only SEND adds to
`txq`, only STOP_RX writes `rx_live` and only SET_MAX_OUT writes `max_out`. -/
def Obligations.AgentsKeepToTheirQueues : Prop :=
  ∀ (i : Instr) (s t : State), exec i s = .next t →
    (ofRxEngine i = true → t.txSeq = s.txSeq ∧ t.txq = s.txq ∧ t.cur = s.cur ∧ t.txOut = s.txOut ∧ t.txLive = s.txLive ∧
      t.maxOut = s.maxOut ∧ t.cmdIn = s.cmdIn ∧ t.rspOut = s.rspOut ∧ (∃ xs, t.ackq = s.ackq ++ xs) ∧
      (∃ xs, t.dataOut = s.dataOut ++ xs) ∧ (∃ xs, t.crq = s.crq ++ xs) ∧ (∃ xs, s.rxIn = xs ++ t.rxIn)) ∧
    (ofTxEngine i = true → t = { s with ackq := t.ackq, cur := t.cur, txq := t.txq, txOut := t.txOut, txSeq := t.txSeq } ∧
      (∃ xs, s.ackq = xs ++ t.ackq) ∧ (∃ xs, s.txq = xs ++ t.txq)) ∧
    (ofHost i = true → t = { s with
        rxLive := t.rxLive, txq := t.txq, maxOut := t.maxOut, anom := t.anom, dataOut := t.dataOut, crq := t.crq
        cmdIn := t.cmdIn, rspOut := t.rspOut } ∧
      (∃ xs, t.txq = s.txq ++ xs) ∧ (∃ xs, s.dataOut = xs ++ t.dataOut) ∧ (∃ xs, s.crq = xs ++ t.crq) ∧
      (i ≠ .cmdPopData → t.dataOut = s.dataOut) ∧ (i ≠ .cmdPopCtrl → t.crq = s.crq) ∧
      ((∀ op dest payload, i ≠ .cmdSend op dest payload) → t.txq = s.txq) ∧
      (i ≠ .cmdStopRx → t.rxLive = s.rxLive) ∧ ((∀ v, i ≠ .cmdSetMaxOut v) → t.maxOut = s.maxOut))

/-- R120 and R180 with R69: a row of an engine is never anything but that engine's own step. A row of the RX engine is the step on
the item at the head of `rx_in`, and a row of the TX engine is TX_STEP, or it has no step in that state (log entry 4). -/
def Obligations.RowsTakeTheirEnginesStep : Prop :=
  ∀ (i : Instr) (s : State),
    (ofRxEngine i = true → exec i s = .next s ∨
      ∃ it rest, s.rxIn = it :: rest ∧ exec i s = exec (decodeItem it.code) s) ∧
    (ofTxEngine i = true → exec i s = .next s ∨ exec i s = exec .txStep s)
end

