-- ==== Sys2Proof/Laws/State.lean ====
section
/-! SUPPORT. What each named update of State does to each field: one lemma per field per update, so that a later proof does not
unfold an update. -/

namespace Sys2Proof.Machine

/-! ### `State.flag` -/

@[simp] theorem State.flag_params (s : State) (a : Anomaly) : (s.flag a).params = s.params := rfl
@[simp] theorem State.flag_rxLive (s : State) (a : Anomaly) : (s.flag a).rxLive = s.rxLive := rfl
@[simp] theorem State.flag_txLive (s : State) (a : Anomaly) : (s.flag a).txLive = s.txLive := rfl
@[simp] theorem State.flag_fsm (s : State) (a : Anomaly) : (s.flag a).fsm = s.fsm := rfl
@[simp] theorem State.flag_matchCount (s : State) (a : Anomaly) : (s.flag a).matchCount = s.matchCount := rfl
@[simp] theorem State.flag_pcount (s : State) (a : Anomaly) : (s.flag a).pcount = s.pcount := rfl
@[simp] theorem State.flag_pbuf (s : State) (a : Anomaly) : (s.flag a).pbuf = s.pbuf := rfl
@[simp] theorem State.flag_hdrRsv (s : State) (a : Anomaly) : (s.flag a).hdrRsv = s.hdrRsv := rfl
@[simp] theorem State.flag_hdrSeq (s : State) (a : Anomaly) : (s.flag a).hdrSeq = s.hdrSeq := rfl
@[simp] theorem State.flag_hdrOp (s : State) (a : Anomaly) : (s.flag a).hdrOp = s.hdrOp := rfl
@[simp] theorem State.flag_hdrDest (s : State) (a : Anomaly) : (s.flag a).hdrDest = s.hdrDest := rfl
@[simp] theorem State.flag_hdrLen (s : State) (a : Anomaly) : (s.flag a).hdrLen = s.hdrLen := rfl
@[simp] theorem State.flag_dcount (s : State) (a : Anomaly) : (s.flag a).dcount = s.dcount := rfl
@[simp] theorem State.flag_acc (s : State) (a : Anomaly) : (s.flag a).acc = s.acc := rfl
@[simp] theorem State.flag_ds (s : State) (a : Anomaly) : (s.flag a).ds = s.ds := rfl
@[simp] theorem State.flag_lastOp (s : State) (a : Anomaly) : (s.flag a).lastOp = s.lastOp := rfl
@[simp] theorem State.flag_lastOpValid (s : State) (a : Anomaly) : (s.flag a).lastOpValid = s.lastOpValid := rfl
@[simp] theorem State.flag_txSeq (s : State) (a : Anomaly) : (s.flag a).txSeq = s.txSeq := rfl
@[simp] theorem State.flag_txq (s : State) (a : Anomaly) : (s.flag a).txq = s.txq := rfl
@[simp] theorem State.flag_cur (s : State) (a : Anomaly) : (s.flag a).cur = s.cur := rfl
@[simp] theorem State.flag_ackq (s : State) (a : Anomaly) : (s.flag a).ackq = s.ackq := rfl
@[simp] theorem State.flag_maxOut (s : State) (a : Anomaly) : (s.flag a).maxOut = s.maxOut := rfl
@[simp] theorem State.flag_dataOut (s : State) (a : Anomaly) : (s.flag a).dataOut = s.dataOut := rfl
@[simp] theorem State.flag_crq (s : State) (a : Anomaly) : (s.flag a).crq = s.crq := rfl
@[simp] theorem State.flag_anom (s : State) (a : Anomaly) : (s.flag a).anom = s.anom ||| a.mask := rfl
@[simp] theorem State.flag_rxIn (s : State) (a : Anomaly) : (s.flag a).rxIn = s.rxIn := rfl
@[simp] theorem State.flag_txOut (s : State) (a : Anomaly) : (s.flag a).txOut = s.txOut := rfl
@[simp] theorem State.flag_cmdIn (s : State) (a : Anomaly) : (s.flag a).cmdIn = s.cmdIn := rfl
@[simp] theorem State.flag_rspOut (s : State) (a : Anomaly) : (s.flag a).rspOut = s.rspOut := rfl
@[simp] theorem State.flag_agenda (s : State) (a : Anomaly) : (s.flag a).agenda = s.agenda := rfl

/-! ### `State.deliver` -/

@[simp] theorem State.deliver_params (s : State) (items : List RxItem) : (s.deliver items).params = s.params := rfl
@[simp] theorem State.deliver_rxLive (s : State) (items : List RxItem) : (s.deliver items).rxLive = s.rxLive := rfl
@[simp] theorem State.deliver_txLive (s : State) (items : List RxItem) : (s.deliver items).txLive = s.txLive := rfl
@[simp] theorem State.deliver_fsm (s : State) (items : List RxItem) : (s.deliver items).fsm = s.fsm := rfl
@[simp] theorem State.deliver_matchCount (s : State) (items : List RxItem) : (s.deliver items).matchCount = s.matchCount := rfl
@[simp] theorem State.deliver_pcount (s : State) (items : List RxItem) : (s.deliver items).pcount = s.pcount := rfl
@[simp] theorem State.deliver_pbuf (s : State) (items : List RxItem) : (s.deliver items).pbuf = s.pbuf := rfl
@[simp] theorem State.deliver_hdrRsv (s : State) (items : List RxItem) : (s.deliver items).hdrRsv = s.hdrRsv := rfl
@[simp] theorem State.deliver_hdrSeq (s : State) (items : List RxItem) : (s.deliver items).hdrSeq = s.hdrSeq := rfl
@[simp] theorem State.deliver_hdrOp (s : State) (items : List RxItem) : (s.deliver items).hdrOp = s.hdrOp := rfl
@[simp] theorem State.deliver_hdrDest (s : State) (items : List RxItem) : (s.deliver items).hdrDest = s.hdrDest := rfl
@[simp] theorem State.deliver_hdrLen (s : State) (items : List RxItem) : (s.deliver items).hdrLen = s.hdrLen := rfl
@[simp] theorem State.deliver_dcount (s : State) (items : List RxItem) : (s.deliver items).dcount = s.dcount := rfl
@[simp] theorem State.deliver_acc (s : State) (items : List RxItem) : (s.deliver items).acc = s.acc := rfl
@[simp] theorem State.deliver_ds (s : State) (items : List RxItem) : (s.deliver items).ds = s.ds := rfl
@[simp] theorem State.deliver_lastOp (s : State) (items : List RxItem) : (s.deliver items).lastOp = s.lastOp := rfl
@[simp] theorem State.deliver_lastOpValid (s : State) (items : List RxItem) : (s.deliver items).lastOpValid = s.lastOpValid := rfl
@[simp] theorem State.deliver_txSeq (s : State) (items : List RxItem) : (s.deliver items).txSeq = s.txSeq := rfl
@[simp] theorem State.deliver_txq (s : State) (items : List RxItem) : (s.deliver items).txq = s.txq := rfl
@[simp] theorem State.deliver_cur (s : State) (items : List RxItem) : (s.deliver items).cur = s.cur := rfl
@[simp] theorem State.deliver_ackq (s : State) (items : List RxItem) : (s.deliver items).ackq = s.ackq := rfl
@[simp] theorem State.deliver_maxOut (s : State) (items : List RxItem) : (s.deliver items).maxOut = s.maxOut := rfl
@[simp] theorem State.deliver_dataOut (s : State) (items : List RxItem) : (s.deliver items).dataOut = s.dataOut := rfl
@[simp] theorem State.deliver_crq (s : State) (items : List RxItem) : (s.deliver items).crq = s.crq := rfl
@[simp] theorem State.deliver_anom (s : State) (items : List RxItem) : (s.deliver items).anom = s.anom := rfl
@[simp] theorem State.deliver_rxIn (s : State) (items : List RxItem) : (s.deliver items).rxIn = s.rxIn ++ items := rfl
@[simp] theorem State.deliver_txOut (s : State) (items : List RxItem) : (s.deliver items).txOut = s.txOut := rfl
@[simp] theorem State.deliver_cmdIn (s : State) (items : List RxItem) : (s.deliver items).cmdIn = s.cmdIn := rfl
@[simp] theorem State.deliver_rspOut (s : State) (items : List RxItem) : (s.deliver items).rspOut = s.rspOut := rfl
@[simp] theorem State.deliver_agenda (s : State) (items : List RxItem) : (s.deliver items).agenda = s.agenda := rfl

/-! ### `State.issue` -/

@[simp] theorem State.issue_params (s : State) (c : HostCommand) : (s.issue c).params = s.params := rfl
@[simp] theorem State.issue_rxLive (s : State) (c : HostCommand) : (s.issue c).rxLive = s.rxLive := rfl
@[simp] theorem State.issue_txLive (s : State) (c : HostCommand) : (s.issue c).txLive = s.txLive := rfl
@[simp] theorem State.issue_fsm (s : State) (c : HostCommand) : (s.issue c).fsm = s.fsm := rfl
@[simp] theorem State.issue_matchCount (s : State) (c : HostCommand) : (s.issue c).matchCount = s.matchCount := rfl
@[simp] theorem State.issue_pcount (s : State) (c : HostCommand) : (s.issue c).pcount = s.pcount := rfl
@[simp] theorem State.issue_pbuf (s : State) (c : HostCommand) : (s.issue c).pbuf = s.pbuf := rfl
@[simp] theorem State.issue_hdrRsv (s : State) (c : HostCommand) : (s.issue c).hdrRsv = s.hdrRsv := rfl
@[simp] theorem State.issue_hdrSeq (s : State) (c : HostCommand) : (s.issue c).hdrSeq = s.hdrSeq := rfl
@[simp] theorem State.issue_hdrOp (s : State) (c : HostCommand) : (s.issue c).hdrOp = s.hdrOp := rfl
@[simp] theorem State.issue_hdrDest (s : State) (c : HostCommand) : (s.issue c).hdrDest = s.hdrDest := rfl
@[simp] theorem State.issue_hdrLen (s : State) (c : HostCommand) : (s.issue c).hdrLen = s.hdrLen := rfl
@[simp] theorem State.issue_dcount (s : State) (c : HostCommand) : (s.issue c).dcount = s.dcount := rfl
@[simp] theorem State.issue_acc (s : State) (c : HostCommand) : (s.issue c).acc = s.acc := rfl
@[simp] theorem State.issue_ds (s : State) (c : HostCommand) : (s.issue c).ds = s.ds := rfl
@[simp] theorem State.issue_lastOp (s : State) (c : HostCommand) : (s.issue c).lastOp = s.lastOp := rfl
@[simp] theorem State.issue_lastOpValid (s : State) (c : HostCommand) : (s.issue c).lastOpValid = s.lastOpValid := rfl
@[simp] theorem State.issue_txSeq (s : State) (c : HostCommand) : (s.issue c).txSeq = s.txSeq := rfl
@[simp] theorem State.issue_txq (s : State) (c : HostCommand) : (s.issue c).txq = s.txq := rfl
@[simp] theorem State.issue_cur (s : State) (c : HostCommand) : (s.issue c).cur = s.cur := rfl
@[simp] theorem State.issue_ackq (s : State) (c : HostCommand) : (s.issue c).ackq = s.ackq := rfl
@[simp] theorem State.issue_maxOut (s : State) (c : HostCommand) : (s.issue c).maxOut = s.maxOut := rfl
@[simp] theorem State.issue_dataOut (s : State) (c : HostCommand) : (s.issue c).dataOut = s.dataOut := rfl
@[simp] theorem State.issue_crq (s : State) (c : HostCommand) : (s.issue c).crq = s.crq := rfl
@[simp] theorem State.issue_anom (s : State) (c : HostCommand) : (s.issue c).anom = s.anom := rfl
@[simp] theorem State.issue_rxIn (s : State) (c : HostCommand) : (s.issue c).rxIn = s.rxIn := rfl
@[simp] theorem State.issue_txOut (s : State) (c : HostCommand) : (s.issue c).txOut = s.txOut := rfl
@[simp] theorem State.issue_cmdIn (s : State) (c : HostCommand) : (s.issue c).cmdIn = s.cmdIn ++ [c] := rfl
@[simp] theorem State.issue_rspOut (s : State) (c : HostCommand) : (s.issue c).rspOut = s.rspOut := rfl
@[simp] theorem State.issue_agenda (s : State) (c : HostCommand) : (s.issue c).agenda = s.agenda := rfl

/-! ### `State.answer` -/

@[simp] theorem State.answer_params (s : State) (code : RspCode) (value : RspValue) : (s.answer code value).params = s.params := rfl
@[simp] theorem State.answer_rxLive (s : State) (code : RspCode) (value : RspValue) : (s.answer code value).rxLive = s.rxLive := rfl
@[simp] theorem State.answer_txLive (s : State) (code : RspCode) (value : RspValue) : (s.answer code value).txLive = s.txLive := rfl
@[simp] theorem State.answer_fsm (s : State) (code : RspCode) (value : RspValue) : (s.answer code value).fsm = s.fsm := rfl
@[simp] theorem State.answer_matchCount (s : State) (code : RspCode) (value : RspValue) : (s.answer code value).matchCount = s.matchCount := rfl
@[simp] theorem State.answer_pcount (s : State) (code : RspCode) (value : RspValue) : (s.answer code value).pcount = s.pcount := rfl
@[simp] theorem State.answer_pbuf (s : State) (code : RspCode) (value : RspValue) : (s.answer code value).pbuf = s.pbuf := rfl
@[simp] theorem State.answer_hdrRsv (s : State) (code : RspCode) (value : RspValue) : (s.answer code value).hdrRsv = s.hdrRsv := rfl
@[simp] theorem State.answer_hdrSeq (s : State) (code : RspCode) (value : RspValue) : (s.answer code value).hdrSeq = s.hdrSeq := rfl
@[simp] theorem State.answer_hdrOp (s : State) (code : RspCode) (value : RspValue) : (s.answer code value).hdrOp = s.hdrOp := rfl
@[simp] theorem State.answer_hdrDest (s : State) (code : RspCode) (value : RspValue) : (s.answer code value).hdrDest = s.hdrDest := rfl
@[simp] theorem State.answer_hdrLen (s : State) (code : RspCode) (value : RspValue) : (s.answer code value).hdrLen = s.hdrLen := rfl
@[simp] theorem State.answer_dcount (s : State) (code : RspCode) (value : RspValue) : (s.answer code value).dcount = s.dcount := rfl
@[simp] theorem State.answer_acc (s : State) (code : RspCode) (value : RspValue) : (s.answer code value).acc = s.acc := rfl
@[simp] theorem State.answer_ds (s : State) (code : RspCode) (value : RspValue) : (s.answer code value).ds = s.ds := rfl
@[simp] theorem State.answer_lastOp (s : State) (code : RspCode) (value : RspValue) : (s.answer code value).lastOp = s.lastOp := rfl
@[simp] theorem State.answer_lastOpValid (s : State) (code : RspCode) (value : RspValue) : (s.answer code value).lastOpValid = s.lastOpValid := rfl
@[simp] theorem State.answer_txSeq (s : State) (code : RspCode) (value : RspValue) : (s.answer code value).txSeq = s.txSeq := rfl
@[simp] theorem State.answer_txq (s : State) (code : RspCode) (value : RspValue) : (s.answer code value).txq = s.txq := rfl
@[simp] theorem State.answer_cur (s : State) (code : RspCode) (value : RspValue) : (s.answer code value).cur = s.cur := rfl
@[simp] theorem State.answer_ackq (s : State) (code : RspCode) (value : RspValue) : (s.answer code value).ackq = s.ackq := rfl
@[simp] theorem State.answer_maxOut (s : State) (code : RspCode) (value : RspValue) : (s.answer code value).maxOut = s.maxOut := rfl
@[simp] theorem State.answer_dataOut (s : State) (code : RspCode) (value : RspValue) : (s.answer code value).dataOut = s.dataOut := rfl
@[simp] theorem State.answer_crq (s : State) (code : RspCode) (value : RspValue) : (s.answer code value).crq = s.crq := rfl
@[simp] theorem State.answer_anom (s : State) (code : RspCode) (value : RspValue) : (s.answer code value).anom = s.anom := rfl
@[simp] theorem State.answer_rxIn (s : State) (code : RspCode) (value : RspValue) : (s.answer code value).rxIn = s.rxIn := rfl
@[simp] theorem State.answer_txOut (s : State) (code : RspCode) (value : RspValue) : (s.answer code value).txOut = s.txOut := rfl
@[simp] theorem State.answer_cmdIn (s : State) (code : RspCode) (value : RspValue) : (s.answer code value).cmdIn = s.cmdIn.tail := rfl
@[simp] theorem State.answer_rspOut (s : State) (code : RspCode) (value : RspValue) : (s.answer code value).rspOut = s.rspOut ++ [{ code := code, value := value }] := rfl
@[simp] theorem State.answer_agenda (s : State) (code : RspCode) (value : RspValue) : (s.answer code value).agenda = s.agenda := rfl

/-! ### `commit` -/

@[simp] theorem commit_params (s : State) (r : RxOut) : (commit s r).params = r.st.params := rfl
@[simp] theorem commit_rxLive (s : State) (r : RxOut) : (commit s r).rxLive = r.st.rxLive := rfl
@[simp] theorem commit_txLive (s : State) (r : RxOut) : (commit s r).txLive = r.st.txLive := rfl
@[simp] theorem commit_fsm (s : State) (r : RxOut) : (commit s r).fsm = r.st.fsm := rfl
@[simp] theorem commit_matchCount (s : State) (r : RxOut) : (commit s r).matchCount = r.st.matchCount := rfl
@[simp] theorem commit_pcount (s : State) (r : RxOut) : (commit s r).pcount = r.st.pcount := rfl
@[simp] theorem commit_pbuf (s : State) (r : RxOut) : (commit s r).pbuf = r.st.pbuf := rfl
@[simp] theorem commit_hdrRsv (s : State) (r : RxOut) : (commit s r).hdrRsv = r.st.hdrRsv := rfl
@[simp] theorem commit_hdrSeq (s : State) (r : RxOut) : (commit s r).hdrSeq = r.st.hdrSeq := rfl
@[simp] theorem commit_hdrOp (s : State) (r : RxOut) : (commit s r).hdrOp = r.st.hdrOp := rfl
@[simp] theorem commit_hdrDest (s : State) (r : RxOut) : (commit s r).hdrDest = r.st.hdrDest := rfl
@[simp] theorem commit_hdrLen (s : State) (r : RxOut) : (commit s r).hdrLen = r.st.hdrLen := rfl
@[simp] theorem commit_dcount (s : State) (r : RxOut) : (commit s r).dcount = r.st.dcount := rfl
@[simp] theorem commit_acc (s : State) (r : RxOut) : (commit s r).acc = r.st.acc := rfl
@[simp] theorem commit_ds (s : State) (r : RxOut) : (commit s r).ds = r.st.ds := rfl
@[simp] theorem commit_lastOp (s : State) (r : RxOut) : (commit s r).lastOp = r.st.lastOp := rfl
@[simp] theorem commit_lastOpValid (s : State) (r : RxOut) : (commit s r).lastOpValid = r.st.lastOpValid := rfl
@[simp] theorem commit_txSeq (s : State) (r : RxOut) : (commit s r).txSeq = r.st.txSeq := rfl
@[simp] theorem commit_txq (s : State) (r : RxOut) : (commit s r).txq = r.st.txq := rfl
@[simp] theorem commit_cur (s : State) (r : RxOut) : (commit s r).cur = r.st.cur := rfl
@[simp] theorem commit_ackq (s : State) (r : RxOut) : (commit s r).ackq = s.ackq ++ r.ack.toList := rfl
@[simp] theorem commit_maxOut (s : State) (r : RxOut) : (commit s r).maxOut = r.st.maxOut := rfl
@[simp] theorem commit_dataOut (s : State) (r : RxOut) : (commit s r).dataOut = s.dataOut ++ r.outs := rfl
@[simp] theorem commit_crq (s : State) (r : RxOut) : (commit s r).crq = s.crq ++ r.ctrl.toList := rfl
@[simp] theorem commit_anom (s : State) (r : RxOut) : (commit s r).anom = r.st.anom := rfl
@[simp] theorem commit_rxIn (s : State) (r : RxOut) : (commit s r).rxIn = s.rxIn.tail := rfl
@[simp] theorem commit_txOut (s : State) (r : RxOut) : (commit s r).txOut = r.st.txOut := rfl
@[simp] theorem commit_cmdIn (s : State) (r : RxOut) : (commit s r).cmdIn = r.st.cmdIn := rfl
@[simp] theorem commit_rspOut (s : State) (r : RxOut) : (commit s r).rspOut = r.st.rspOut := rfl
@[simp] theorem commit_agenda (s : State) (r : RxOut) : (commit s r).agenda = r.st.agenda := rfl

/-! ### `emit` -/

@[simp] theorem emit_params (e : Emission) : (emit e).params = e.st.params := rfl
@[simp] theorem emit_rxLive (e : Emission) : (emit e).rxLive = e.st.rxLive := rfl
@[simp] theorem emit_txLive (e : Emission) : (emit e).txLive = e.st.txLive := rfl
@[simp] theorem emit_fsm (e : Emission) : (emit e).fsm = e.st.fsm := rfl
@[simp] theorem emit_matchCount (e : Emission) : (emit e).matchCount = e.st.matchCount := rfl
@[simp] theorem emit_pcount (e : Emission) : (emit e).pcount = e.st.pcount := rfl
@[simp] theorem emit_pbuf (e : Emission) : (emit e).pbuf = e.st.pbuf := rfl
@[simp] theorem emit_hdrRsv (e : Emission) : (emit e).hdrRsv = e.st.hdrRsv := rfl
@[simp] theorem emit_hdrSeq (e : Emission) : (emit e).hdrSeq = e.st.hdrSeq := rfl
@[simp] theorem emit_hdrOp (e : Emission) : (emit e).hdrOp = e.st.hdrOp := rfl
@[simp] theorem emit_hdrDest (e : Emission) : (emit e).hdrDest = e.st.hdrDest := rfl
@[simp] theorem emit_hdrLen (e : Emission) : (emit e).hdrLen = e.st.hdrLen := rfl
@[simp] theorem emit_dcount (e : Emission) : (emit e).dcount = e.st.dcount := rfl
@[simp] theorem emit_acc (e : Emission) : (emit e).acc = e.st.acc := rfl
@[simp] theorem emit_ds (e : Emission) : (emit e).ds = e.st.ds := rfl
@[simp] theorem emit_lastOp (e : Emission) : (emit e).lastOp = e.st.lastOp := rfl
@[simp] theorem emit_lastOpValid (e : Emission) : (emit e).lastOpValid = e.st.lastOpValid := rfl
@[simp] theorem emit_txSeq (e : Emission) : (emit e).txSeq = nextseq e.st.txSeq := rfl
@[simp] theorem emit_txq (e : Emission) : (emit e).txq = e.st.txq := rfl
@[simp] theorem emit_cur (e : Emission) : (emit e).cur = e.st.cur := rfl
@[simp] theorem emit_ackq (e : Emission) : (emit e).ackq = e.st.ackq := rfl
@[simp] theorem emit_maxOut (e : Emission) : (emit e).maxOut = e.st.maxOut := rfl
@[simp] theorem emit_dataOut (e : Emission) : (emit e).dataOut = e.st.dataOut := rfl
@[simp] theorem emit_crq (e : Emission) : (emit e).crq = e.st.crq := rfl
@[simp] theorem emit_anom (e : Emission) : (emit e).anom = e.st.anom := rfl
@[simp] theorem emit_rxIn (e : Emission) : (emit e).rxIn = e.st.rxIn := rfl
@[simp] theorem emit_txOut (e : Emission) : (emit e).txOut = e.st.txOut ++ packet e.st.txSeq e.op e.dest e.body := rfl
@[simp] theorem emit_cmdIn (e : Emission) : (emit e).cmdIn = e.st.cmdIn := rfl
@[simp] theorem emit_rspOut (e : Emission) : (emit e).rspOut = e.st.rspOut := rfl
@[simp] theorem emit_agenda (e : Emission) : (emit e).agenda = e.st.agenda := rfl

/-! ### `State.flagIf` -/

@[simp] theorem State.flagIf_params (s : State) (c : Bool) (a : Anomaly) : (s.flagIf c a).params = s.params := by cases c <;> rfl
@[simp] theorem State.flagIf_rxLive (s : State) (c : Bool) (a : Anomaly) : (s.flagIf c a).rxLive = s.rxLive := by cases c <;> rfl
@[simp] theorem State.flagIf_txLive (s : State) (c : Bool) (a : Anomaly) : (s.flagIf c a).txLive = s.txLive := by cases c <;> rfl
@[simp] theorem State.flagIf_fsm (s : State) (c : Bool) (a : Anomaly) : (s.flagIf c a).fsm = s.fsm := by cases c <;> rfl
@[simp] theorem State.flagIf_matchCount (s : State) (c : Bool) (a : Anomaly) : (s.flagIf c a).matchCount = s.matchCount := by cases c <;> rfl
@[simp] theorem State.flagIf_pcount (s : State) (c : Bool) (a : Anomaly) : (s.flagIf c a).pcount = s.pcount := by cases c <;> rfl
@[simp] theorem State.flagIf_pbuf (s : State) (c : Bool) (a : Anomaly) : (s.flagIf c a).pbuf = s.pbuf := by cases c <;> rfl
@[simp] theorem State.flagIf_hdrRsv (s : State) (c : Bool) (a : Anomaly) : (s.flagIf c a).hdrRsv = s.hdrRsv := by cases c <;> rfl
@[simp] theorem State.flagIf_hdrSeq (s : State) (c : Bool) (a : Anomaly) : (s.flagIf c a).hdrSeq = s.hdrSeq := by cases c <;> rfl
@[simp] theorem State.flagIf_hdrOp (s : State) (c : Bool) (a : Anomaly) : (s.flagIf c a).hdrOp = s.hdrOp := by cases c <;> rfl
@[simp] theorem State.flagIf_hdrDest (s : State) (c : Bool) (a : Anomaly) : (s.flagIf c a).hdrDest = s.hdrDest := by cases c <;> rfl
@[simp] theorem State.flagIf_hdrLen (s : State) (c : Bool) (a : Anomaly) : (s.flagIf c a).hdrLen = s.hdrLen := by cases c <;> rfl
@[simp] theorem State.flagIf_dcount (s : State) (c : Bool) (a : Anomaly) : (s.flagIf c a).dcount = s.dcount := by cases c <;> rfl
@[simp] theorem State.flagIf_acc (s : State) (c : Bool) (a : Anomaly) : (s.flagIf c a).acc = s.acc := by cases c <;> rfl
@[simp] theorem State.flagIf_ds (s : State) (c : Bool) (a : Anomaly) : (s.flagIf c a).ds = s.ds := by cases c <;> rfl
@[simp] theorem State.flagIf_lastOp (s : State) (c : Bool) (a : Anomaly) : (s.flagIf c a).lastOp = s.lastOp := by cases c <;> rfl
@[simp] theorem State.flagIf_lastOpValid (s : State) (c : Bool) (a : Anomaly) : (s.flagIf c a).lastOpValid = s.lastOpValid := by cases c <;> rfl
@[simp] theorem State.flagIf_txSeq (s : State) (c : Bool) (a : Anomaly) : (s.flagIf c a).txSeq = s.txSeq := by cases c <;> rfl
@[simp] theorem State.flagIf_txq (s : State) (c : Bool) (a : Anomaly) : (s.flagIf c a).txq = s.txq := by cases c <;> rfl
@[simp] theorem State.flagIf_cur (s : State) (c : Bool) (a : Anomaly) : (s.flagIf c a).cur = s.cur := by cases c <;> rfl
@[simp] theorem State.flagIf_ackq (s : State) (c : Bool) (a : Anomaly) : (s.flagIf c a).ackq = s.ackq := by cases c <;> rfl
@[simp] theorem State.flagIf_maxOut (s : State) (c : Bool) (a : Anomaly) : (s.flagIf c a).maxOut = s.maxOut := by cases c <;> rfl
@[simp] theorem State.flagIf_dataOut (s : State) (c : Bool) (a : Anomaly) : (s.flagIf c a).dataOut = s.dataOut := by cases c <;> rfl
@[simp] theorem State.flagIf_crq (s : State) (c : Bool) (a : Anomaly) : (s.flagIf c a).crq = s.crq := by cases c <;> rfl
@[simp] theorem State.flagIf_anom (s : State) (c : Bool) (a : Anomaly) :
    (s.flagIf c a).anom = if c then s.anom ||| a.mask else s.anom := by cases c <;> rfl
@[simp] theorem State.flagIf_rxIn (s : State) (c : Bool) (a : Anomaly) : (s.flagIf c a).rxIn = s.rxIn := by cases c <;> rfl
@[simp] theorem State.flagIf_txOut (s : State) (c : Bool) (a : Anomaly) : (s.flagIf c a).txOut = s.txOut := by cases c <;> rfl
@[simp] theorem State.flagIf_cmdIn (s : State) (c : Bool) (a : Anomaly) : (s.flagIf c a).cmdIn = s.cmdIn := by cases c <;> rfl
@[simp] theorem State.flagIf_rspOut (s : State) (c : Bool) (a : Anomaly) : (s.flagIf c a).rspOut = s.rspOut := by cases c <;> rfl
@[simp] theorem State.flagIf_agenda (s : State) (c : Bool) (a : Anomaly) : (s.flagIf c a).agenda = s.agenda := by cases c <;> rfl

/-! ### `latchHeader` -/

@[simp] theorem latchHeader_params (s : State) (b : Byte) : (latchHeader s b).params = s.params := by
  simp [latchHeader]
@[simp] theorem latchHeader_rxLive (s : State) (b : Byte) : (latchHeader s b).rxLive = s.rxLive := by
  simp [latchHeader]
@[simp] theorem latchHeader_txLive (s : State) (b : Byte) : (latchHeader s b).txLive = s.txLive := by
  simp [latchHeader]
@[simp] theorem latchHeader_fsm (s : State) (b : Byte) : (latchHeader s b).fsm = s.fsm := by
  simp [latchHeader]
@[simp] theorem latchHeader_matchCount (s : State) (b : Byte) : (latchHeader s b).matchCount = s.matchCount := by
  simp [latchHeader]
@[simp] theorem latchHeader_pcount (s : State) (b : Byte) : (latchHeader s b).pcount = 0 := rfl
@[simp] theorem latchHeader_pbuf (s : State) (b : Byte) : (latchHeader s b).pbuf = s.pbuf := by
  simp [latchHeader]
@[simp] theorem latchHeader_hdrRsv (s : State) (b : Byte) : (latchHeader s b).hdrRsv = s.pbuf[0] := rfl
@[simp] theorem latchHeader_hdrSeq (s : State) (b : Byte) : (latchHeader s b).hdrSeq = be16 s.pbuf[1] s.pbuf[2] := rfl
@[simp] theorem latchHeader_hdrOp (s : State) (b : Byte) : (latchHeader s b).hdrOp = s.pbuf[3] := rfl
@[simp] theorem latchHeader_hdrDest (s : State) (b : Byte) : (latchHeader s b).hdrDest = s.pbuf[4] := rfl
@[simp] theorem latchHeader_hdrLen (s : State) (b : Byte) : (latchHeader s b).hdrLen = be16 s.pbuf[5] b := rfl
@[simp] theorem latchHeader_dcount (s : State) (b : Byte) : (latchHeader s b).dcount = s.dcount := by
  simp [latchHeader]
@[simp] theorem latchHeader_acc (s : State) (b : Byte) : (latchHeader s b).acc = s.acc := by
  simp [latchHeader]
@[simp] theorem latchHeader_ds (s : State) (b : Byte) : (latchHeader s b).ds = .normal := rfl
@[simp] theorem latchHeader_lastOp (s : State) (b : Byte) : (latchHeader s b).lastOp = s.lastOp := by
  simp [latchHeader]
@[simp] theorem latchHeader_lastOpValid (s : State) (b : Byte) : (latchHeader s b).lastOpValid = s.lastOpValid := by
  simp [latchHeader]
@[simp] theorem latchHeader_txSeq (s : State) (b : Byte) : (latchHeader s b).txSeq = s.txSeq := by
  simp [latchHeader]
@[simp] theorem latchHeader_txq (s : State) (b : Byte) : (latchHeader s b).txq = s.txq := by
  simp [latchHeader]
@[simp] theorem latchHeader_cur (s : State) (b : Byte) : (latchHeader s b).cur = s.cur := by
  simp [latchHeader]
@[simp] theorem latchHeader_ackq (s : State) (b : Byte) : (latchHeader s b).ackq = s.ackq := by
  simp [latchHeader]
@[simp] theorem latchHeader_maxOut (s : State) (b : Byte) : (latchHeader s b).maxOut = s.maxOut := by
  simp [latchHeader]
@[simp] theorem latchHeader_dataOut (s : State) (b : Byte) : (latchHeader s b).dataOut = s.dataOut := by
  simp [latchHeader]
@[simp] theorem latchHeader_crq (s : State) (b : Byte) : (latchHeader s b).crq = s.crq := by
  simp [latchHeader]
@[simp] theorem latchHeader_anom (s : State) (b : Byte) :
    (latchHeader s b).anom = if s.pbuf[3] ∈ s.params.catalog then s.anom else s.anom ||| 0x01 := by
  by_cases h : s.pbuf[3] ∈ s.params.catalog <;> simp [latchHeader, h, Anomaly.mask, Anomaly.bit]
@[simp] theorem latchHeader_rxIn (s : State) (b : Byte) : (latchHeader s b).rxIn = s.rxIn := by
  simp [latchHeader]
@[simp] theorem latchHeader_txOut (s : State) (b : Byte) : (latchHeader s b).txOut = s.txOut := by
  simp [latchHeader]
@[simp] theorem latchHeader_cmdIn (s : State) (b : Byte) : (latchHeader s b).cmdIn = s.cmdIn := by
  simp [latchHeader]
@[simp] theorem latchHeader_rspOut (s : State) (b : Byte) : (latchHeader s b).rspOut = s.rspOut := by
  simp [latchHeader]
@[simp] theorem latchHeader_agenda (s : State) (b : Byte) : (latchHeader s b).agenda = s.agenda := by
  simp [latchHeader]

end Sys2Proof.Machine
end

