-- ==== Sys2Proof/Laws/Ops.lean ====
section
/-! SUPPORT. For each shared operation what it can do, said once: byte order, room, the RX engine's step, a payload byte, the TX
engine's choice and its step. -/

namespace Sys2Proof

/-! ### Byte order -/

theorem hi8_toNat (v : Word) : (hi8 v).toNat = v.toNat / 256 := by
  have := v.isLt
  simp only [hi8, BitVec.extractLsb'_toNat, Nat.shiftRight_eq_div_pow]
  omega

theorem lo8_toNat (v : Word) : (lo8 v).toNat = v.toNat % 256 := by
  simp [lo8, BitVec.extractLsb'_toNat]

theorem be16_toNat (a b : Byte) : (be16 a b).toNat = a.toNat * 256 + b.toNat := by
  have := a.isLt
  have := b.isLt
  simp only [be16, BitVec.toNat_ofNat]
  omega

@[simp] theorem be16_hi8_lo8 (v : Word) : be16 (hi8 v) (lo8 v) = v := by
  apply BitVec.eq_of_toNat_eq
  rw [be16_toNat, hi8_toNat, lo8_toNat]
  omega

@[simp] theorem hi8_be16 (a b : Byte) : hi8 (be16 a b) = a := by
  apply BitVec.eq_of_toNat_eq
  have := b.isLt
  rw [hi8_toNat, be16_toNat]
  omega

@[simp] theorem lo8_be16 (a b : Byte) : lo8 (be16 a b) = b := by
  apply BitVec.eq_of_toNat_eq
  have := b.isLt
  rw [lo8_toNat, be16_toNat]
  omega

@[simp] theorem wireBytes_length (rsv : Byte) (seq : Word) (op dest : Byte) (body : List Byte) :
    (wireBytes rsv seq op dest body).length = 10 + body.length := by
  simp [wireBytes]
  omega

/-- The free parameters of Config meet R6 and R7, whatever they are. -/
theorem Config.params_valid : Config.params.valid := by
  have h := Config.freeOpAckOffset.isLt
  have hm := Config.freeMaxPacket.isLt
  refine ⟨?_, by simp [Config.params], by simp [Config.params], by simp [Config.params], ?_, by simp [Config.params],
    by simp [Config.params], by simp [Config.params], by simp [Config.params], by simp [Config.params]⟩
  · intro heq
    have := congrArg BitVec.toNat heq
    have hd := Config.freeOpData.isLt
    have h1 : BitVec.toNat (1 : BitVec 8) = 1 := rfl
    simp only [Config.params, BitVec.toNat_add, BitVec.toNat_ofNat, h1] at this
    omega
  · simp only [Config.params]
    omega

/-- The layout of R80 byte by byte, where the length field holds the body's length (R62, R83). -/
theorem wireBytes_eq_layout (rsv : Byte) (seq : Word) (op dest : Byte) {body : List Byte} (h : body.length ≤ 65535) :
    wireBytes rsv seq op dest body =
      [0x1B, 0x1B, 0x1B, rsv, BitVec.ofNat 8 (seq.toNat / 256), BitVec.ofNat 8 (seq.toNat % 256), op, dest,
        BitVec.ofNat 8 (body.length / 256), BitVec.ofNat 8 (body.length % 256)] ++ body := by
  have hi : ∀ v : Word, hi8 v = BitVec.ofNat 8 (v.toNat / 256) := fun v => by rw [← hi8_toNat, BitVec.ofNat_toNat]; simp
  have lo : ∀ v : Word, lo8 v = BitVec.ofNat 8 (v.toNat % 256) := fun v => by rw [← lo8_toNat, BitVec.ofNat_toNat]; simp
  have len : (BitVec.ofNat 16 body.length).toNat = body.length := by rw [BitVec.toNat_ofNat]; omega
  simp only [wireBytes, Config.marker, hi, lo, len]

end Sys2Proof

namespace Sys2Proof.Machine

/-! ### Room -/

@[simp] theorem fits_iff (n a : Nat) : fits n a = true ↔ n ≤ a := by
  induction n generalizing a with
  | zero => simp [fits]
  | succ n ih => cases a with
    | zero => simp [fits]
    | succ a => simp [fits, ih]

theorem room_eq {α : Type} (depth : Nat) (q : List α) : room depth q = depth - q.length := rfl

/-- S14 is the count, where 16 bits hold it. -/
theorem outstandingField_toNat {n : Nat} (h : n ≤ 65535) : (outstandingField n).toNat = n := by
  rw [outstandingField, if_pos h, BitVec.toNat_ofNat]
  omega

/-- The enabling condition of R120, in terms of lengths. -/
theorem fitsIn_iff (r : RxOut) (s : State) :
    r.fitsIn s = true ↔ (r.outs ≠ [] → s.dataOut.length + r.outs.length ≤ s.params.dataqDepth) ∧
      (r.ack ≠ none → s.ackq.length < s.params.ackqDepth) ∧ (r.ctrl ≠ none → s.crq.length < s.params.crqDepth) := by
  obtain ⟨st, outs, ack, ctrl⟩ := r
  have ho : fits outs.length (room s.params.dataqDepth s.dataOut) = true ↔
      (outs ≠ [] → s.dataOut.length + outs.length ≤ s.params.dataqDepth) := by
    rw [fits_iff, room_eq]
    cases outs with
    | nil => simp
    | cons b bs => simp only [List.length_cons, ne_eq, reduceCtorEq, not_false_eq_true, true_implies]; omega
  simp only [RxOut.fitsIn, Bool.and_eq_true, ho, and_assoc]
  cases ack <;> cases ctrl <;> simp [room_eq] <;> omega

/-! ### The RX engine's step -/

/-- An enabled step. -/
theorem consume_enabled {s : State} {b : Byte} {rest : List RxItem} {r : RxOut} (h : Reading s b rest)
    (hf : r.fitsIn s = true) : consume s b r = commit s r := by
  simp [consume, h.1, h.2, hf]

/-- A step whose output does not fit is held. -/
theorem consume_held {s : State} {b : Byte} {r : RxOut} (hf : r.fitsIn s = false) : consume s b r = s := by
  simp [consume, hf]

/-- A stopped reader is held. -/
theorem consume_stopped {s : State} {b : Byte} {r : RxOut} (h : s.rxLive = false) : consume s b r = s := by
  simp [consume, h]

/-- Everything a step of the RX engine on a byte can do. -/
theorem consume_cases (s : State) (b : Byte) (r : RxOut) :
    consume s b r = s ∨ (∃ rest, Reading s b rest) ∧ r.fitsIn s = true ∧ consume s b r = commit s r := by
  by_cases h : s.rxLive = true ∧ s.rxIn.head? = some (.byte b) ∧ r.fitsIn s = true
  · right
    obtain ⟨hl, hh, hf⟩ := h
    cases hr : s.rxIn with
    | nil => simp [hr] at hh
    | cons it rest =>
      simp only [hr, List.head?_cons, Option.some.injEq] at hh
      exact ⟨⟨rest, hl, by rw [hr, hh]⟩, hf, by simp [consume, hl, hr, hh, hf]⟩
  · left
    simp only [consume, if_neg h]

/-- Everything a row of the receiver can do. -/
theorem rxRow_cases {sel : Bool} {s : State} {b : Byte} {r : RxOut} {t : State} (h : rxRow sel s b r = .next t) :
    t = s ∨ sel = true ∧ (∃ rest, Reading s b rest) ∧ r.fitsIn s = true ∧ t = commit s r := by
  cases sel with
  | false => left; simpa [rxRow] using h.symm
  | true =>
    have ht : t = consume s b r := by simpa [rxRow] using h.symm
    rcases consume_cases s b r with hc | ⟨hr, hf, hc⟩
    · exact .inl (ht.trans hc)
    · exact .inr ⟨rfl, hr, hf, ht.trans hc⟩

/-- A payload byte that does not complete the packet. -/
theorem payloadByte_more {s : State} {outs : List Byte} (h : s.dcount + 1 ≠ s.hdrLen) :
    payloadByte s outs = { st := { s with dcount := s.dcount + 1 }, outs := outs, ack := none, ctrl := none } := by
  rw [payloadByte, if_neg h]

/-- The last payload byte of a packet. -/
theorem payloadByte_last {s : State} {outs : List Byte} (h : s.dcount + 1 = s.hdrLen) :
    payloadByte s outs = complete { s with dcount := s.dcount + 1 } outs := by
  rw [payloadByte, if_pos h]

@[simp] theorem payloadByte_outs (s : State) (outs : List Byte) : (payloadByte s outs).outs = outs := by
  by_cases h : s.dcount + 1 = s.hdrLen
  · rw [payloadByte_last h]; rfl
  · rw [payloadByte_more h]

/-- Everything a step on an end-of-stream item can do. -/
theorem rxEof_cases (s : State) :
    rxEof s = s ∨ s.rxLive = true ∧ (∃ rest, s.rxIn = .eof :: rest) ∧
      rxEof s = { s.flag .eof with rxIn := s.rxIn.tail, rxLive := false } := by
  by_cases h : s.rxLive = true ∧ s.rxIn.head? = some .eof
  · right
    obtain ⟨hl, hh⟩ := h
    cases hr : s.rxIn with
    | nil => simp [hr] at hh
    | cons it rest =>
      simp only [hr, List.head?_cons, Option.some.injEq] at hh
      subst hh
      exact ⟨hl, ⟨rest, rfl⟩, by simp [rxEof, hl, hr]⟩
  · left
    simp only [rxEof, if_neg h]

/-! ### The TX engine's step -/

/-- Everything the TX engine can pick, and what it takes it from. -/
theorem txPick_cases {s : State} {e : Emission} (h : txPick s = some e) :
    (∃ r rs, s.ackq = r :: rs ∧
      e = Emission.mk s.params.opAck s.params.ackDest (ackBody r.seq r.len) { s with ackq := rs }) ∨
    (s.ackq = [] ∧ ∃ c, s.cur = some c ∧
      e = Emission.mk c.op c.dest c.chunks.first { s with cur := afterFirst c.op c.dest c.chunks }) ∨
    (s.ackq = [] ∧ s.cur = none ∧ ∃ q qs, s.txq = q :: qs ∧
      e = Emission.mk q.op q.dest (packetize s.params q.op q.payload).first
        { s with txq := qs, cur := afterFirst q.op q.dest (packetize s.params q.op q.payload) }) := by
  cases ha : s.ackq with
  | cons r rs =>
    left
    simp only [txPick, ha, txAck, Option.some.injEq] at h
    exact ⟨r, rs, rfl, h.symm⟩
  | nil =>
    right
    simp only [txPick, ha, txHost] at h
    cases hc : s.cur with
    | some c =>
      left
      simp only [hc, Option.some.injEq] at h
      exact ⟨rfl, c, rfl, h.symm⟩
    | none =>
      right
      simp only [hc] at h
      cases hq : s.txq with
      | nil => simp [hq] at h
      | cons q qs =>
        simp only [hq, Option.some.injEq] at h
        exact ⟨rfl, rfl, q, qs, rfl, h.symm⟩

/-- The TX engine has nothing to pick exactly when it is idle. -/
theorem txPick_none_iff (s : State) : txPick s = none ↔ TxIdle s := by
  unfold TxIdle txPick txAck txHost
  cases s.ackq <;> cases s.cur <;> cases s.txq <;> simp

/-- Everything a step of the TX engine can do. -/
theorem txTurn_cases (s : State) :
    txTurn s = s ∨ s.txLive = true ∧ ∃ e, txPick s = some e ∧ txTurn s = emit e := by
  cases hl : s.txLive with
  | false => left; simp [txTurn, hl]
  | true =>
    cases hp : txPick s with
    | none => left; simp [txTurn, hl, hp]
    | some e => exact .inr ⟨rfl, e, rfl, by simp [txTurn, hl, hp]⟩

/-- Everything a row of the TX engine can do: nothing, or the emission picked. -/
theorem txSends_cases (s : State) (pick : Option Emission) (rsv : Byte) (seq : Word) (op dest : Byte) (body : List Byte) :
    txSends s pick rsv seq op dest body = s ∨
    s.txLive = true ∧ ∃ e, pick = some e ∧ op = e.op ∧ dest = e.dest ∧ body = e.body ∧ seq = s.txSeq ∧
      txSends s pick rsv seq op dest body = emit e := by
  cases pick with
  | none => left; rfl
  | some e =>
    by_cases h : s.txLive = true ∧ rsv = Config.hdrRsv ∧ seq = s.txSeq ∧ op = e.op ∧ dest = e.dest ∧ body = e.body
    · exact .inr ⟨h.1, e, rfl, h.2.2.2.1, h.2.2.2.2.1, h.2.2.2.2.2, h.2.2.1, by simp only [txSends, if_pos h]⟩
    · left
      simp only [txSends, if_neg h]

/-- A host packet picked while no ACK waits is what the TX engine picks. -/
theorem txHostNow_txPick {s : State} {e : Emission} (h : txHostNow s = some e) : txPick s = some e := by
  cases ha : s.ackq with
  | nil => simpa [txHostNow, txPick, ha] using h
  | cons r rs => simp [txHostNow, ha] at h

/-- An ACK packet picked is what the TX engine picks. -/
theorem txAck_txPick {s : State} {e : Emission} (h : txAck s = some e) : txPick s = some e := by
  cases ha : s.ackq with
  | nil => simp [txAck, ha] at h
  | cons r rs => simpa [txPick, ha] using h

/-! ### Items and command words -/

@[simp] theorem decodeItem_byte (b : Byte) : decodeItem (RxItem.byte b).code = .rxiByte b := by
  have hb := b.isLt
  have h1 : (RxItem.byte b).code.extractLsb' 8 1 = 0#1 := by
    apply BitVec.eq_of_toNat_eq
    simp only [RxItem.code, BitVec.extractLsb'_toNat, BitVec.toNat_append, Nat.shiftRight_eq_div_pow]
    simp
    omega
  have h2 : (RxItem.byte b).code.extractLsb' 0 8 = b := by
    apply BitVec.eq_of_toNat_eq
    simp only [RxItem.code, BitVec.extractLsb'_toNat, BitVec.toNat_append]
    simp
    omega
  simp [decodeItem, h1, h2]

@[simp] theorem decodeItem_eof : decodeItem RxItem.eof.code = .rxiEof := by decide

end Sys2Proof.Machine
end

