-- ==== Sys2Proof/Laws/Exec.lean ====
section
/-! SUPPORT. What the rows of an agent can do, said once for each agent, and how a property goes through a run of RX engine
steps. -/

namespace Sys2Proof.Machine

/-! ### The RX engine -/

/-- The state after a step on an end-of-stream item (R137). -/
def afterEof (s : State) : State := { s.flag .eof with rxIn := s.rxIn.tail, rxLive := false }

/-- Everything one step of the RX engine can come to: nothing, the byte at the head taken in, or the end of the stream. -/
def RxMoves (s t : State) : Prop :=
  t = s ∨ (∃ b rest, Reading s b rest ∧ (rxByte s b).fitsIn s = true ∧ t = commit s (rxByte s b)) ∨
    (s.rxLive = true ∧ (∃ rest, s.rxIn = .eof :: rest) ∧ t = afterEof s)

/-- A row of the receiver whose outcome is that of `rx_byte` where it is selected is a step of the RX engine. -/
theorem rxRow_moves {sel : Bool} {s : State} {b : Byte} {r : RxOut} {t : State} (h : rxRow sel s b r = .next t)
    (hr : sel = true → r = rxByte s b) : RxMoves s t := by
  rcases rxRow_cases h with h | ⟨hs, ⟨rest, hrd⟩, hf, ht⟩
  · exact .inl h
  · rw [hr hs] at hf ht
    exact .inr (.inl ⟨b, rest, hrd, hf, ht⟩)

theorem consume_moves (s : State) (b : Byte) : RxMoves s (consume s b (rxByte s b)) := by
  rcases consume_cases s b (rxByte s b) with h | ⟨⟨rest, hr⟩, hf, h⟩
  · exact .inl h
  · exact .inr (.inl ⟨b, rest, hr, hf, h⟩)

theorem rxEof_moves (s : State) : RxMoves s (rxEof s) := by
  rcases rxEof_cases s with h | ⟨hl, hr, h⟩
  · exact .inl h
  · exact .inr (.inr ⟨hl, hr, h⟩)

theorem rxTurn_moves (s : State) : RxMoves s (rxTurn s) := by
  unfold rxTurn
  split
  · exact .inl rfl
  · exact rxEof_moves s
  · exact consume_moves s _

theorem rxByte_rh_mark {s : State} (hf : s.fsm = .rh) (hm : s.matchCount.val < 2) :
    rxByte s Config.marker = rxMark s := by
  simp [rxByte, hf, hm]

theorem rxByte_rh_mark3 {s : State} (hf : s.fsm = .rh) (hm : s.matchCount = 2) :
    rxByte s Config.marker = rxMark3 s := by
  simp [rxByte, hf, hm]

theorem rxByte_rh_other {s : State} {b : Byte} (hf : s.fsm = .rh) (hb : b ≠ Config.marker) :
    rxByte s b = rxOther s := by
  simp [rxByte, hf, hb]

theorem rxByte_rp_byte {s : State} {b : Byte} (hf : s.fsm = .rp) (hp : s.pcount.val < 6) :
    rxByte s b = rxParam s b := by
  simp [rxByte, hf, hp]

theorem rxByte_rp_last {s : State} {b : Byte} (hf : s.fsm = .rp) (hp : s.pcount = 6) : rxByte s b = rxLast s b := by
  simp [rxByte, hf, hp]

theorem rxByte_rd_data {s : State} {b : Byte} (hf : s.fsm = .rd) (ho : s.hdrOp = s.params.opData) :
    rxByte s b = rxData s b := by
  simp [rxByte, hf, ho]

theorem rxByte_rd_ctrl {s : State} {b : Byte} (hf : s.fsm = .rd) (ho : s.hdrOp ≠ s.params.opData) :
    rxByte s b = rxCtrl s b := by
  simp [rxByte, hf, ho]

/-- The row the state selects in R120's table, with its outcome. -/
theorem rxByte_cases (s : State) (b : Byte) :
    (s.fsm = .rh ∧ b = Config.marker ∧ s.matchCount.val < 2 ∧ rxByte s b = rxMark s) ∨
    (s.fsm = .rh ∧ b = Config.marker ∧ s.matchCount = 2 ∧ rxByte s b = rxMark3 s) ∨
    (s.fsm = .rh ∧ b ≠ Config.marker ∧ rxByte s b = rxOther s) ∨
    (s.fsm = .rp ∧ s.pcount.val < 6 ∧ rxByte s b = rxParam s b) ∨
    (s.fsm = .rp ∧ s.pcount = 6 ∧ be16 s.pbuf[5] b = 0 ∧ rxByte s b = rxEmpty s b) ∨
    (s.fsm = .rp ∧ s.pcount = 6 ∧ be16 s.pbuf[5] b ≠ 0 ∧ rxByte s b = rxEnterData s b) ∨
    (s.fsm = .rd ∧ s.hdrOp = s.params.opData ∧ rxByte s b = rxData s b) ∨
    (s.fsm = .rd ∧ s.hdrOp ≠ s.params.opData ∧ rxByte s b = rxCtrl s b) := by
  cases hf : s.fsm with
  | rh =>
    by_cases hb : b = Config.marker
    · subst hb
      by_cases hm : s.matchCount.val < 2
      · exact .inl ⟨rfl, rfl, hm, rxByte_rh_mark hf hm⟩
      · have h2 : s.matchCount = 2 := by omega
        exact .inr (.inl ⟨rfl, rfl, h2, rxByte_rh_mark3 hf h2⟩)
    · exact .inr (.inr (.inl ⟨rfl, hb, rxByte_rh_other hf hb⟩))
  | rp =>
    by_cases hp : s.pcount.val < 6
    · exact .inr (.inr (.inr (.inl ⟨rfl, hp, rxByte_rp_byte hf hp⟩)))
    · have h6 : s.pcount = 6 := by omega
      by_cases h0 : be16 s.pbuf[5] b = 0
      · exact .inr (.inr (.inr (.inr (.inl ⟨rfl, h6, h0, by rw [rxByte_rp_last hf h6, rxLast, if_pos h0]⟩))))
      · exact .inr (.inr (.inr (.inr (.inr (.inl
          ⟨rfl, h6, h0, by rw [rxByte_rp_last hf h6, rxLast, if_neg h0]⟩)))))
  | rd =>
    by_cases ho : s.hdrOp = s.params.opData
    · exact .inr (.inr (.inr (.inr (.inr (.inr (.inl ⟨rfl, ho, rxByte_rd_data hf ho⟩))))))
    · exact .inr (.inr (.inr (.inr (.inr (.inr (.inr ⟨rfl, ho, rxByte_rd_ctrl hf ho⟩))))))

/-- What `rx_byte` never writes: the fields of the other agents, the ports, and the queues that the step pushes to. -/
theorem rxByte_keeps (s : State) (b : Byte) :
    (rxByte s b).st.params = s.params ∧ (rxByte s b).st.rxLive = s.rxLive ∧ (rxByte s b).st.txLive = s.txLive ∧
    (rxByte s b).st.txSeq = s.txSeq ∧ (rxByte s b).st.txq = s.txq ∧ (rxByte s b).st.cur = s.cur ∧
    (rxByte s b).st.maxOut = s.maxOut ∧ (rxByte s b).st.txOut = s.txOut ∧ (rxByte s b).st.cmdIn = s.cmdIn ∧
    (rxByte s b).st.rspOut = s.rspOut ∧ (rxByte s b).st.agenda = s.agenda := by
  rcases rxByte_cases s b with ⟨-, -, -, h⟩ | ⟨-, -, -, h⟩ | ⟨-, -, h⟩ | ⟨-, -, h⟩ | ⟨-, -, -, h⟩ | ⟨-, -, -, h⟩ |
      ⟨-, -, h⟩ | ⟨-, -, h⟩ <;> rw [h]
  · simp [rxMark, quiet]
  · simp [rxMark3, quiet]
  · simp [rxOther, quiet]
  · simp [rxParam, quiet]
  · simp [rxEmpty]
  · simp [rxEnterData]
  · unfold rxData payloadByte
    split <;> simp [complete]
  · unfold rxCtrl payloadByte
    split <;> simp [complete]

/-- The anomalies `rx_byte` can set (R285): OPC at a parameter block, OUTS at a completion. -/
theorem rxByte_anom (s : State) (b : Byte) :
    (rxByte s b).st.anom = s.anom ∨ (rxByte s b).st.anom = s.anom ||| Anomaly.opc.mask ∨
    (rxByte s b).st.anom = s.anom ||| Anomaly.outs.mask := by
  have flagIf : ∀ (u : State) (c : Bool) (a : Anomaly), (u.flagIf c a).anom = u.anom ∨
      (u.flagIf c a).anom = u.anom ||| a.mask := by
    intro u c a
    cases c
    · exact .inl rfl
    · exact .inr rfl
  rcases rxByte_cases s b with ⟨-, -, -, h⟩ | ⟨-, -, -, h⟩ | ⟨-, -, h⟩ | ⟨-, -, h⟩ | ⟨-, -, -, h⟩ | ⟨-, -, -, h⟩ |
      ⟨-, -, h⟩ | ⟨-, -, h⟩ <;> rw [h]
  · exact .inl rfl
  · exact .inl rfl
  · exact .inl rfl
  · exact .inl rfl
  · exact (flagIf s _ .opc).elim .inl fun h => .inr (.inl h)
  · exact (flagIf s _ .opc).elim .inl fun h => .inr (.inl h)
  · unfold rxData payloadByte
    split
    · exact (flagIf _ _ .outs).elim .inl fun h => .inr (.inr h)
    · exact .inl rfl
  · unfold rxCtrl payloadByte
    split
    · exact (flagIf _ _ .outs).elim .inl fun h => .inr (.inr h)
    · exact .inl rfl

/-- Every row of the RX engine is a step of the RX engine. -/
theorem exec_rx_moves {i : Instr} {s t : State} (hi : ofRxEngine i = true) (h : exec i s = .next t) : RxMoves s t := by
  have data : ∀ {d : Ds}, s.destuffing d = true → s.fsm = .rd ∧ s.hdrOp = s.params.opData ∧ s.ds = d := by
    intro d hd
    simpa [State.destuffing, State.inData, and_assoc] using hd
  cases i with
  | rxiByte b => cases h; exact consume_moves s b
  | rxiEof => cases h; exact rxEof_moves s
  | rhMark =>
    exact rxRow_moves h fun hs => by
      simp only [Bool.and_eq_true, decide_eq_true_eq] at hs
      exact (rxByte_rh_mark hs.1 hs.2).symm
  | rhMark3 =>
    exact rxRow_moves h fun hs => by
      simp only [Bool.and_eq_true, decide_eq_true_eq] at hs
      exact (rxByte_rh_mark3 hs.1 hs.2).symm
  | rhOther b =>
    exact rxRow_moves h fun hs => by
      simp only [Bool.and_eq_true, decide_eq_true_eq] at hs
      exact (rxByte_rh_other hs.1 hs.2).symm
  | rpByte b =>
    exact rxRow_moves h fun hs => by
      simp only [Bool.and_eq_true, decide_eq_true_eq] at hs
      exact (rxByte_rp_byte hs.1 hs.2).symm
  | rpLast b =>
    exact rxRow_moves h fun hs => by
      simp only [Bool.and_eq_true, decide_eq_true_eq] at hs
      exact (rxByte_rp_last hs.1 hs.2).symm
  | pktEmpty b =>
    exact rxRow_moves h fun hs => by
      simp only [Bool.and_eq_true, decide_eq_true_eq] at hs
      rw [rxByte_rp_last hs.1.1 hs.1.2, rxLast, if_pos hs.2]
  | rdData b =>
    exact rxRow_moves h fun hs => by
      simp only [Bool.and_eq_true, decide_eq_true_eq, State.inData] at hs
      exact (rxByte_rd_data hs.1 hs.2).symm
  | rdCtrl b =>
    exact rxRow_moves h fun hs => by
      simp only [Bool.and_eq_true, decide_eq_true_eq, State.inData, Bool.not_eq_true', decide_eq_false_iff_not] at hs
      exact (rxByte_rd_ctrl hs.1 hs.2).symm
  | dsNMark =>
    exact rxRow_moves h fun hs => by
      obtain ⟨hf, ho, hd⟩ := data hs
      simp [rxByte_rd_data hf ho, rxData, hd, destuff]
  | dsNOther b =>
    exact rxRow_moves h fun hs => by
      simp only [Bool.and_eq_true, decide_eq_true_eq] at hs
      obtain ⟨hf, ho, hd⟩ := data hs.1
      simp [rxByte_rd_data hf ho, rxData, hd, destuff, hs.2]
  | ds1Mark =>
    exact rxRow_moves h fun hs => by
      obtain ⟨hf, ho, hd⟩ := data hs
      simp [rxByte_rd_data hf ho, rxData, hd, destuff]
  | ds1Other b =>
    exact rxRow_moves h fun hs => by
      simp only [Bool.and_eq_true, decide_eq_true_eq] at hs
      obtain ⟨hf, ho, hd⟩ := data hs.1
      simp [rxByte_rd_data hf ho, rxData, hd, destuff, hs.2]
  | ds2Sent b =>
    exact rxRow_moves h fun hs => by
      simp only [Bool.and_eq_true, decide_eq_true_eq] at hs
      obtain ⟨hf, ho, hd⟩ := data hs.1
      simp [rxByte_rd_data hf ho, rxData, hd, destuff, hs.2]
  | ds2Other b =>
    exact rxRow_moves h fun hs => by
      simp only [Bool.and_eq_true, decide_eq_true_eq] at hs
      obtain ⟨hf, ho, hd⟩ := data hs.1
      simp [rxByte_rd_data hf ho, rxData, hd, destuff, hs.2]
  | _ => exact absurd hi (by simp [ofRxEngine])

/-- A property that every step of the RX engine keeps goes through any number of them. -/
theorem rxTurns_induct {P : State → Prop} (step : ∀ s t, P s → RxMoves s t → P t) (n : Nat) {s : State} (h : P s) :
    P (rxTurns n s) := by
  induction n generalizing s with
  | zero => exact h
  | succ n ih => exact ih (step s _ h (rxTurn_moves s))

/-- A property that the arrival of items and every step of the RX engine keep goes through a script line. -/
theorem rxLine_induct {P : State → Prop} (arrive : ∀ s items, P s → P (s.deliver items))
    (step : ∀ s t, P s → RxMoves s t → P t) {s : State} (bytes : List Byte) (h : P s) : P (rxLine s bytes) :=
  rxTurns_induct step _ (arrive s _ h)

/-! ### The TX engine -/

/-- Everything one step of the TX engine can come to: nothing, or the emission of the packet it picks. -/
def TxMoves (s t : State) : Prop := t = s ∨ s.txLive = true ∧ ∃ e, txPick s = some e ∧ t = emit e

theorem txTurn_moves (s : State) : TxMoves s (txTurn s) := by
  rcases txTurn_cases s with h | ⟨hl, e, hp, h⟩
  · exact .inl h
  · exact .inr ⟨hl, e, hp, h⟩

theorem txSends_moves {s : State} {pick : Option Emission} {rsv : Byte} {seq : Word} {op dest : Byte} {body : List Byte}
    (hp : ∀ e, pick = some e → txPick s = some e) : TxMoves s (txSends s pick rsv seq op dest body) := by
  rcases txSends_cases s pick rsv seq op dest body with h | ⟨hl, e, he, -, -, -, -, h⟩
  · exact .inl h
  · exact .inr ⟨hl, e, hp e he, h⟩

/-- Every row of the TX engine is a step of the TX engine. -/
theorem exec_tx_moves {i : Instr} {s t : State} (hi : ofTxEngine i = true) (h : exec i s = .next t) : TxMoves s t := by
  cases i with
  | txStep => cases h; exact txTurn_moves s
  | pktData dir rsv seq dest body =>
    cases dir with
    | sent => cases h; exact txSends_moves fun e he => txHostNow_txPick he
    | received => exact absurd hi (by simp [ofTxEngine])
  | pktCtrl dir rsv seq op dest body =>
    cases dir with
    | sent =>
      by_cases ho : op = s.params.opData
      · left
        have : Host.Outcome.next t = (Host.Outcome.next s : Result) := by rw [← h]; simp [exec, execPktCtrl, ho]
        exact Host.Outcome.next.inj this
      · have : Host.Outcome.next t = (Host.Outcome.next (txSends s (txHostNow s) rsv seq op dest body) : Result) := by
          rw [← h]; simp [exec, execPktCtrl, ho]
        rw [Host.Outcome.next.inj this]
        exact txSends_moves fun e he => txHostNow_txPick he
    | received => exact absurd hi (by simp [ofTxEngine])
  | pktAck dir seq rseq rlen =>
    cases dir with
    | sent => cases h; exact txSends_moves fun e he => txAck_txPick he
    | received => exact absurd hi (by simp [ofTxEngine])
  | _ => exact absurd hi (by simp [ofTxEngine])

/-! ### The host -/

/-- The update of the block that a command comes to, when it completes (44_host_ops.md R240 to R248). -/
def HostUpdate (s u : State) : Prop :=
  (∃ q, s.txLive = true ∧ s.txq.length < s.params.txqDepth ∧ u = { s with txq := s.txq ++ [q] }) ∨
  (s.txLive = false ∧ u = s.flag .notOpen) ∨ u = { s with rxLive := false } ∨ (∃ v, u = { s with maxOut := v }) ∨
  (∃ mask, u = { s with anom := s.anom &&& ~~~mask }) ∨ (∃ b bs, s.dataOut = b :: bs ∧ u = { s with dataOut := bs }) ∨
  (∃ r rs, s.crq = r :: rs ∧ u = { s with crq := rs }) ∨ u = s ∨ u = s.flag .badCmd

/-- Everything a command can come to: it is held, or it completes with its update and its response. -/
def HostMoves (s t : State) : Prop := t = s ∨ ∃ u code value, HostUpdate s u ∧ t = u.answer code value

/-- Every host command is one of these. -/
theorem exec_host_moves {i : Instr} {s t : State} (hi : ofHost i = true) (h : exec i s = .next t) : HostMoves s t := by
  cases i with
  | cmdSend op dest payload =>
    have ht := (Host.Outcome.next.inj h).symm
    by_cases hl : s.txLive = true
    · by_cases hq : s.txq.length < s.params.txqDepth
      · have hr : fits 1 (room s.params.txqDepth s.txq) = true := by rw [fits_iff, room_eq]; omega
        rw [if_pos hl, if_pos hr] at ht
        exact .inr ⟨_, _, _, .inl ⟨_, hl, hq, rfl⟩, ht⟩
      · have hr : ¬fits 1 (room s.params.txqDepth s.txq) = true := by rw [fits_iff, room_eq]; omega
        rw [if_pos hl, if_neg hr] at ht
        exact .inl ht
    · rw [if_neg hl] at ht
      exact .inr ⟨_, _, _, .inr (.inl ⟨by simpa using hl, rfl⟩), ht⟩
  | cmdStopRx => exact .inr ⟨_, _, _, .inr (.inr (.inl rfl)), (Host.Outcome.next.inj h).symm⟩
  | cmdSetMaxOut v => exact .inr ⟨_, _, _, .inr (.inr (.inr (.inl ⟨v, rfl⟩))), (Host.Outcome.next.inj h).symm⟩
  | cmdClearAnom mask =>
    exact .inr ⟨_, _, _, .inr (.inr (.inr (.inr (.inl ⟨mask, rfl⟩)))), (Host.Outcome.next.inj h).symm⟩
  | cmdPopData =>
    cases hd : s.dataOut with
    | nil =>
      simp only [exec, execCmdPopData, hd] at h
      exact .inr ⟨_, _, _, .inr (.inr (.inr (.inr (.inr (.inr (.inr (.inl rfl))))))), (Host.Outcome.next.inj h).symm⟩
    | cons b bs =>
      simp only [exec, execCmdPopData, hd] at h
      exact .inr ⟨_, _, _, .inr (.inr (.inr (.inr (.inr (.inl ⟨b, bs, hd, rfl⟩))))), (Host.Outcome.next.inj h).symm⟩
  | cmdPopCtrl =>
    cases hd : s.crq with
    | nil =>
      simp only [exec, execCmdPopCtrl, hd] at h
      exact .inr ⟨_, _, _, .inr (.inr (.inr (.inr (.inr (.inr (.inr (.inl rfl))))))), (Host.Outcome.next.inj h).symm⟩
    | cons r rs =>
      simp only [exec, execCmdPopCtrl, hd] at h
      exact .inr ⟨_, _, _, .inr (.inr (.inr (.inr (.inr (.inr (.inl ⟨r, rs, hd, rfl⟩)))))),
        (Host.Outcome.next.inj h).symm⟩
  | cmdReadStatus =>
    exact .inr ⟨_, _, _, .inr (.inr (.inr (.inr (.inr (.inr (.inr (.inl rfl))))))), (Host.Outcome.next.inj h).symm⟩
  | cmdReserved =>
    exact .inr ⟨_, _, _, .inr (.inr (.inr (.inr (.inr (.inr (.inr (.inr rfl))))))), (Host.Outcome.next.inj h).symm⟩
  | _ => exact absurd hi (by simp [ofHost])

/-! ### All rows -/

/-- The rows of a packet that arrives on the wire. -/
def ofWire : Instr → Bool
  | .rxiByte _ => false
  | .rxiEof => false
  | .rhMark => false
  | .rhMark3 => false
  | .rhOther _ => false
  | .rpByte _ => false
  | .rpLast _ => false
  | .pktEmpty _ => false
  | .rdData _ => false
  | .rdCtrl _ => false
  | .dsNMark => false
  | .dsNOther _ => false
  | .ds1Mark => false
  | .ds1Other _ => false
  | .ds2Sent _ => false
  | .ds2Other _ => false
  | .pktData dir _ _ _ _ => decide (dir = .received)
  | .pktCtrl dir _ _ _ _ _ => decide (dir = .received)
  | .pktAck dir _ _ _ => decide (dir = .received)
  | .txStep => false
  | .cmdSend _ _ _ => false
  | .cmdStopRx => false
  | .cmdSetMaxOut _ => false
  | .cmdClearAnom _ => false
  | .cmdPopData => false
  | .cmdPopCtrl => false
  | .cmdReadStatus => false
  | .cmdReserved => false
  | .linkErr => false
  | .reset => false

/-- Every row is one of these: a step of an engine, a host command, a packet arriving on the wire, `LINK_ERR` or `RESET`. -/
theorem row_cases (i : Instr) :
    ofRxEngine i = true ∨ ofTxEngine i = true ∨ ofHost i = true ∨ ofWire i = true ∨ i = .linkErr ∨ i = .reset := by
  cases i with
  | pktData dir rsv seq dest body =>
    cases dir with
    | sent => exact .inr (.inl rfl)
    | received => exact .inr (.inr (.inr (.inl rfl)))
  | pktCtrl dir rsv seq op dest body =>
    cases dir with
    | sent => exact .inr (.inl rfl)
    | received => exact .inr (.inr (.inr (.inl rfl)))
  | pktAck dir seq rseq rlen =>
    cases dir with
    | sent => exact .inr (.inl rfl)
    | received => exact .inr (.inr (.inr (.inl rfl)))
  | linkErr => exact .inr (.inr (.inr (.inr (.inl rfl))))
  | reset => exact .inr (.inr (.inr (.inr (.inr rfl))))
  | _ => first | exact .inl rfl | exact .inr (.inl rfl) | exact .inr (.inr (.inl rfl))

/-- A packet that arrives is its bytes arriving and the RX engine taking one step for each (30_encoding.md R94). -/
theorem exec_wire {i : Instr} {s t : State} (hi : ofWire i = true) (h : exec i s = .next t) :
    ∃ bytes, t = rxLine s bytes := by
  cases i with
  | pktData dir rsv seq dest body =>
    cases dir with
    | sent => exact absurd hi (by simp [ofWire])
    | received => cases h; exact ⟨_, rfl⟩
  | pktCtrl dir rsv seq op dest body =>
    cases dir with
    | sent => exact absurd hi (by simp [ofWire])
    | received => cases h; exact ⟨_, rfl⟩
  | pktAck dir seq rseq rlen =>
    cases dir with
    | sent => exact absurd hi (by simp [ofWire])
    | received => cases h; exact ⟨_, rfl⟩
  | _ => exact absurd hi (by simp [ofWire])

end Sys2Proof.Machine
end

