-- ==== Sys2Proof/Laws/PerInstr.lean ====
section
/-! SUPPORT. Statements made instruction by instruction. `EncodedBits`: the code of every row has the width that
spec/opcode_table.json gives it. -/

namespace Sys2Proof.Laws.EncodedBits

/-- The bits of a code: 9 of an `rx_in` item, 8 of a received byte, 8 a byte of a packet, 32 of a command word, none of an
event. -/
def bits : Code → Nat
  | .item _ => 9
  | .byte _ => 8
  | .packet bytes => 8 * bytes.length
  | .command _ _ => 32
  | .event => 0

/-- The bits spec/opcode_table.json gives the row: its column `encoding`, or the digits of its mask. -/
def tableBits : Instr → Nat
  | .rxiByte _ => 9
  | .rxiEof => 9
  | .rhMark => 8
  | .rhMark3 => 8
  | .rhOther _ => 8
  | .rpByte _ => 8
  | .rpLast _ => 8
  | .pktEmpty _ => 8
  | .rdData _ => 8
  | .rdCtrl _ => 8
  | .dsNMark => 8
  | .dsNOther _ => 8
  | .ds1Mark => 8
  | .ds1Other _ => 8
  | .ds2Sent _ => 8
  | .ds2Other _ => 8
  | .pktData _ _ _ _ body => 80 + 8 * body.length
  | .pktCtrl _ _ _ _ _ body => 80 + 8 * body.length
  | .pktAck _ _ _ _ => 112
  | .txStep => 0
  | .cmdSend _ _ _ => 32
  | .cmdStopRx => 32
  | .cmdSetMaxOut _ => 32
  | .cmdClearAnom _ => 32
  | .cmdPopData => 32
  | .cmdPopCtrl => 32
  | .cmdReadStatus => 32
  | .cmdReserved => 32
  | .linkErr => 0
  | .reset => 0

/-- The encoder gives the row as many bits as the table does. -/
def Statement (i : Instr) : Prop := ∀ p : Params, bits (encode p i) = tableBits i

theorem rxiByte (b : Byte) : Statement (.rxiByte b) := fun _ => rfl
theorem rxiEof : Statement .rxiEof := fun _ => rfl
theorem rhMark : Statement .rhMark := fun _ => rfl
theorem rhMark3 : Statement .rhMark3 := fun _ => rfl
theorem rhOther (b : Byte) : Statement (.rhOther b) := fun _ => rfl
theorem rpByte (b : Byte) : Statement (.rpByte b) := fun _ => rfl
theorem rpLast (b : Byte) : Statement (.rpLast b) := fun _ => rfl
theorem pktEmpty (b : Byte) : Statement (.pktEmpty b) := fun _ => rfl
theorem rdData (b : Byte) : Statement (.rdData b) := fun _ => rfl
theorem rdCtrl (b : Byte) : Statement (.rdCtrl b) := fun _ => rfl
theorem dsNMark : Statement .dsNMark := fun _ => rfl
theorem dsNOther (b : Byte) : Statement (.dsNOther b) := fun _ => rfl
theorem ds1Mark : Statement .ds1Mark := fun _ => rfl
theorem ds1Other (b : Byte) : Statement (.ds1Other b) := fun _ => rfl
theorem ds2Sent (b : Byte) : Statement (.ds2Sent b) := fun _ => rfl
theorem ds2Other (b : Byte) : Statement (.ds2Other b) := fun _ => rfl

theorem pktData (dir : Dir) (rsv : Byte) (seq : Word) (dest : Byte) (body : List Byte) :
    Statement (.pktData dir rsv seq dest body) := fun _ => by
  simp only [encode, bits, tableBits, wireBytes_length]
  omega

theorem pktCtrl (dir : Dir) (rsv : Byte) (seq : Word) (op dest : Byte) (body : List Byte) :
    Statement (.pktCtrl dir rsv seq op dest body) := fun _ => by
  simp only [encode, bits, tableBits, wireBytes_length]
  omega

theorem pktAck (dir : Dir) (seq rseq rlen : Word) : Statement (.pktAck dir seq rseq rlen) := fun _ => by
  simp only [encode, bits, tableBits, wireBytes_length]
  rfl

theorem txStep : Statement .txStep := fun _ => rfl
theorem cmdSend (op dest : Byte) (payload : List Byte) : Statement (.cmdSend op dest payload) := fun _ => rfl
theorem cmdStopRx : Statement .cmdStopRx := fun _ => rfl
theorem cmdSetMaxOut (v : Word) : Statement (.cmdSetMaxOut v) := fun _ => rfl
theorem cmdClearAnom (mask : Byte) : Statement (.cmdClearAnom mask) := fun _ => rfl
theorem cmdPopData : Statement .cmdPopData := fun _ => rfl
theorem cmdPopCtrl : Statement .cmdPopCtrl := fun _ => rfl
theorem cmdReadStatus : Statement .cmdReadStatus := fun _ => rfl
theorem cmdReserved : Statement .cmdReserved := fun _ => rfl
theorem linkErr : Statement .linkErr := fun _ => rfl
theorem reset : Statement .reset := fun _ => rfl

end Sys2Proof.Laws.EncodedBits
end

