-- ==== Sys2Proof/Tests/Slice0.lean ====
section
/-! SUPPORT. Tests. The expected values are those of spec/95_test_vectors.md, or worked by hand from the rule a test names. The
theorems `wf_…` show that WellFormed refuses, `decode_…` write codes out from spec/30_encoding.md, `test_…` run one
instruction, and `witness_…` show concrete values that meet the hypotheses of a statement of Certificates/Slice0. -/

namespace Sys2Proof.Tests

open Sys2Proof.Machine

/-! ### Helpers -/

/-- The parameters of the tests: `S` = AA, `D` = D0, `A` = A0, `C` = C0, `MAX_PAYLOAD` = 8 and the least depths that
95_test_vectors.md asks for. -/
def tp : Params :=
  { litSentinel := 0xAA, opData := 0xD0, opAck := 0xA0, catalog := [0xD0, 0xA0, 0xC0], maxPacket := 18, seqInit := 0,
    ackAll := false, ackDest := 0, dataqDepth := 16, crqDepth := 4, ackqDepth := 4, txqDepth := 4 }

/-- The state after reset, with those parameters. -/
def s0 : State := { State.reset with params := tp, txSeq := 0 }

/-- A byte stands at the head of `rx_in`. -/
def reads (b : Byte) (s : State) : State := { s with rxIn := [.byte b] }

/-- Reading the payload of a packet of opcode `op` and length `len`, `n` bytes of it taken in. -/
def inPayload (op : Byte) (len n : Word) (s : State) : State :=
  { s with fsm := .rd, hdrSeq := 9, hdrOp := op, hdrLen := len, dcount := n }

/-- One view of the next state. -/
def seen {α : Type} (r : Result) (f : State → α) : Option α :=
  match r with
  | .next t => some (f t)
  | .fault _ => none
  | .refused _ => none

/-! ### WellFormed refuses -/

theorem wf_rhOther_marker : (Instr.rhOther 0x1B).wf tp = false := by decide
theorem wf_pktEmpty_length : (Instr.pktEmpty 0x01).wf tp = false := by decide
theorem wf_dsNOther_marker : (Instr.dsNOther 0x1B).wf tp = false := by decide
theorem wf_ds1Other_marker : (Instr.ds1Other 0x1B).wf tp = false := by decide
theorem wf_ds2Sent_other : (Instr.ds2Sent 0x07).wf tp = false := by decide
theorem wf_ds2Other_sentinel : (Instr.ds2Other 0xAA).wf tp = false := by decide
theorem wf_pktData_reserved : (Instr.pktData .sent 0x01 0 0 []).wf tp = false := by decide
theorem wf_pktData_seq : (Instr.pktData .sent 0x00 0xFFFF 0 []).wf tp = false := by decide
theorem wf_pktData_body : (Instr.pktData .sent 0x00 0 0 [1, 2, 3, 4, 5, 6, 7, 8, 9]).wf tp = false := by decide
theorem wf_pktData_received : (Instr.pktData .received 0x01 0xFFFF 0xFF [1, 2, 3, 4, 5, 6, 7, 8, 9]).wf tp = true := by
  decide
theorem wf_bodyFits (n : Nat) (h : 65535 < n) : bodyFits (List.replicate n 0) = false := by simp [bodyFits, h]
theorem wf_pktCtrl_opcode : (Instr.pktCtrl .received 0x00 0 0xD0 0 []).wf tp = false := by decide
theorem wf_pktCtrl_ackShaped : (Instr.pktCtrl .received 0x00 0 0xA0 0 [0, 7, 0, 4]).wf tp = false := by decide
theorem wf_pktAck_seq : (Instr.pktAck .sent 0xFFFF 0 0).wf tp = false := by decide

/-! ### Codes written out (30_encoding.md R80, R86, R91, R92; 95_test_vectors.md L2-30, L2-42, L2-43) -/

theorem decode_rxiByte : decode tp .rxPort (.item 0b000011011) = .ok (.rxiByte 0x1B) := by rfl
theorem decode_rxiEof : decode tp .rxPort (.item 0b100000000) = .ok .rxiEof := by rfl
theorem decode_rxiEof_junk : decode tp .rxPort (.item 0b111111111) = .ok .rxiEof := by rfl
theorem decode_rhMark : decode tp (.frame resetView) (.byte 0b00011011) = .ok .rhMark := by rfl
theorem decode_rhMark3 : decode tp (.frame { resetView with matchCount := 2 }) (.byte 0b00011011) = .ok .rhMark3 := by rfl
theorem decode_rhOther : decode tp (.frame resetView) (.byte 0x55) = .ok (.rhOther 0x55) := by rfl
theorem decode_rpByte : decode tp (.frame { resetView with fsm := .rp, pcount := 5 }) (.byte 0x1B) = .ok (.rpByte 0x1B) := by
  rfl
theorem decode_rpLast : decode tp (.outcome { resetView with fsm := .rp, pcount := 6, lenHigh := 1 }) (.byte 0x00) =
    .ok (.rpLast 0x00) := by rfl
theorem decode_pktEmpty : decode tp (.outcome { resetView with fsm := .rp, pcount := 6 }) (.byte 0x00) =
    .ok (.pktEmpty 0x00) := by rfl
theorem decode_rdData : decode tp (.frame { resetView with fsm := .rd, hdrOp := 0xD0 }) (.byte 0x1B) = .ok (.rdData 0x1B) := by
  rfl
theorem decode_rdCtrl : decode tp (.frame { resetView with fsm := .rd, hdrOp := 0x77 }) (.byte 0x1B) = .ok (.rdCtrl 0x1B) := by
  rfl
theorem decode_destuffRows :
    decodeDestuffRow tp .normal 0x1B = .dsNMark ∧ decodeDestuffRow tp .normal 0xAA = .dsNOther 0xAA ∧
    decodeDestuffRow tp .saw1 0x1B = .ds1Mark ∧ decodeDestuffRow tp .saw1 0xAA = .ds1Other 0xAA ∧
    decodeDestuffRow tp .saw2 0xAA = .ds2Sent 0xAA ∧ decodeDestuffRow tp .saw2 0x1B = .ds2Other 0x1B ∧
    decodeDestuffRow { tp with litSentinel := 0x1B } .saw2 0x1B = .ds2Sent 0x1B := by decide
theorem decode_outcome_destuff :
    decode tp (.outcome { resetView with fsm := .rd, hdrOp := 0xD0, ds := .saw1 }) (.byte 0x43) = .ok (.ds1Other 0x43) := by
  rfl
/-- L1-1: the packet that carries `41 42 1B 1B 1B 43 44`. -/
theorem decode_pktData :
    decode tp (.wire .received) (.packet [0x1B, 0x1B, 0x1B, 0x00, 0x00, 0x00, 0xD0, 0x00, 0x00, 0x08, 0x41, 0x42, 0x1B, 0x1B,
      0xAA, 0x1B, 0x43, 0x44]) = .ok (.pktData .received 0x00 0x0000 0x00 [0x41, 0x42, 0x1B, 0x1B, 0xAA, 0x1B, 0x43, 0x44]) := by
  rfl
/-- L2-42 vector 2. -/
theorem decode_pktCtrl :
    decode tp (.wire .sent) (.packet [0x1B, 0x1B, 0x1B, 0x00, 0x1B, 0x1B, 0xC0, 0x00, 0x00, 0x00]) =
      .ok (.pktCtrl .sent 0x00 0x1B1B 0xC0 0x00 []) := by rfl
/-- L2-43 vector 6. -/
theorem decode_pktAck :
    decode tp (.wire .sent) (.packet [0x1B, 0x1B, 0x1B, 0x00, 0x00, 0x05, 0xA0, 0x00, 0x00, 0x04, 0x1B, 0x1B, 0x00, 0x1B]) =
      .ok (.pktAck .sent 0x0005 0x1B1B 0x001B) := by rfl
theorem decode_pkt_refused :
    decode tp (.wire .received) (.packet [0x1B, 0x1B, 0x1B, 0x00, 0x00, 0x00, 0xC0, 0x00, 0x00]) = .error .shortHeader ∧
    decode tp (.wire .received) (.packet [0x1B, 0x1B, 0x41, 0x00, 0x00, 0x00, 0xC0, 0x00, 0x00, 0x00]) = .error .noMarkers ∧
    decode tp (.wire .received) (.packet [0x1B, 0x1B, 0x1B, 0x00, 0x00, 0x00, 0xC0, 0x00, 0x00, 0x01]) =
      .error .lengthMismatch ∧
    decode tp .cmdPort .event = .error .wrongPort := ⟨rfl, rfl, rfl, rfl⟩
/-- L2-30: the command words, and kind 4 with every ignored bit set. -/
theorem decode_commands :
    decodeCommand 0x0000C000 [0x41] = .cmdSend 0xC0 0x00 [0x41] ∧ decodeCommand 0x00000001 [] = .cmdStopRx ∧
    decodeCommand 0x00040002 [] = .cmdSetMaxOut 4 ∧ decodeCommand 0x00000103 [] = .cmdClearAnom 0x01 ∧
    decodeCommand 0x00000004 [] = .cmdPopData ∧ decodeCommand 0x00000005 [] = .cmdPopCtrl ∧
    decodeCommand 0x00000006 [] = .cmdReadStatus ∧ decodeCommand 0x00000007 [] = .cmdReserved ∧
    decodeCommand 0xFFFFFFFC [] = .cmdPopData ∧ decodeCommand 0x1234D000 [] = .cmdSend 0xD0 0x34 [] := by decide
theorem decode_events : decode tp .txTurn .event = .ok .txStep ∧ decode tp .linkErrPin .event = .ok .linkErr ∧
    decode tp .resetPin .event = .ok .reset := ⟨rfl, rfl, rfl⟩
theorem decode_tableWords :
    decodeTableWord 8 0x1B = some .rhMark ∧ decodeTableWord 8 0x55 = some (.rhOther 0x55) ∧
    decodeTableWord 8 0x07 = some .cmdReserved ∧ decodeTableWord 16 0x11B = some .rxiEof ∧
    decodeTableWord 32 0x00040002 = some (.cmdSetMaxOut 4) ∧ decodeTableWord 0 0 = none := by decide

/-! ### One instruction: the frame decoder (L2-40) -/

theorem test_rxiByte : seen (exec (.rxiByte 0x55) (reads 0x55 { s0 with matchCount := 2 })) (fun t => (t.fsm, t.matchCount, t.rxIn)) =
    some (.rh, 0, []) := by decide
theorem test_rxiEof : seen (exec .rxiEof { s0 with rxIn := [.eof], ds := .saw1 }) (fun t => (t.rxLive, t.anom, t.ds, t.txLive)) =
    some (false, 0x10, .saw1, true) := by decide
theorem test_rhMark : seen (exec .rhMark (reads 0x1B { s0 with matchCount := 1 })) (fun t => (t.fsm, t.matchCount)) =
    some (.rh, 2) := by decide
theorem test_rhMark3 : seen (exec .rhMark3 (reads 0x1B { s0 with matchCount := 2 })) (fun t => (t.fsm, t.matchCount, t.pcount)) =
    some (.rp, 0, 0) := by decide
theorem test_rhOther : seen (exec (.rhOther 0x55) (reads 0x55 { s0 with matchCount := 2 })) (fun t => (t.matchCount, t.anom)) =
    some (0, 0) := by decide
theorem test_rpByte : seen (exec (.rpByte 0x1B) (reads 0x1B { s0 with fsm := .rp, pcount := 2 }))
    (fun t => (t.pcount, t.pbuf)) = some (3, #v[0, 0, 0x1B, 0, 0, 0]) := by decide
theorem test_rpLast : seen (exec (.rpLast 0x04) (reads 0x04 { s0 with fsm := .rp, pcount := 6, ds := .saw2, pbuf := #v[0x1B, 0x12, 0x34, 0x77, 0x07, 0x01] }))
    (fun t => (t.fsm, t.hdrSeq, t.hdrLen, t.dataOut, t.anom)) = some (.rd, 0x1234, 0x0104, [0x1B, 0x1B], 0x01) := by decide
theorem test_pktEmpty : seen (exec (.pktEmpty 0x00) (reads 0x00 { s0 with fsm := .rp, pcount := 6, ds := .saw1, pbuf := #v[0, 0, 0x0B, 0xC0, 0, 0] }))
    (fun t => (t.fsm, t.hdrSeq, t.dataOut, t.ds, t.lastOpValid)) = some (.rh, 0x000B, [0x1B], .normal, false) := by decide
theorem test_rdData : seen (exec (.rdData 0x44) (reads 0x44 (inPayload 0xD0 4 3 s0)))
    (fun t => (t.fsm, t.dcount, t.dataOut, t.ackq, t.lastOp)) = some (.rh, 0, [0x44], [{ seq := 9, len := 4 }], 0xD0) := by
  decide
theorem test_rdCtrl : seen (exec (.rdCtrl 0x98) (reads 0x98 { inPayload 0xC0 2 1 s0 with acc := [0x99] }))
    (fun t => (t.fsm, t.acc, t.ackq, t.crq)) =
    some (.rh, [], [], [{ seq := 9, op := 0xC0, dest := 0, payload := [0x99, 0x98] }]) := by decide
theorem test_rdCtrl_ackAll : seen (exec (.rdCtrl 0x98) (reads 0x98 { inPayload 0xC0 2 1 s0 with params := { tp with ackAll := true } }))
    (fun t => t.ackq) = some [{ seq := 9, len := 2 }] := by decide
/-- L2-43 vector 4: the second request with `max_out` 1. -/
theorem test_rdData_outs : seen (exec (.rdData 0x41) (reads 0x41 { inPayload 0xD0 1 0 s0 with maxOut := 1, ackq := [{ seq := 0x10, len := 1 }] }))
    (fun t => (t.anom, t.ackq.length)) = some (0x02, 2) := by decide

/-! ### One instruction: the de-stuffer (L2-41) -/

theorem test_dsNMark : seen (exec .dsNMark (reads 0x1B (inPayload 0xD0 4 0 s0))) (fun t => (t.ds, t.dataOut, t.dcount)) =
    some (.saw1, [], 1) := by decide
theorem test_dsNOther : seen (exec (.dsNOther 0xAA) (reads 0xAA (inPayload 0xD0 4 0 s0))) (fun t => (t.ds, t.dataOut)) =
    some (.normal, [0xAA]) := by decide
theorem test_ds1Mark : seen (exec .ds1Mark (reads 0x1B { inPayload 0xD0 4 1 s0 with ds := .saw1 })) (fun t => (t.ds, t.dataOut)) =
    some (.saw2, []) := by decide
theorem test_ds1Other : seen (exec (.ds1Other 0xAA) (reads 0xAA { inPayload 0xD0 4 1 s0 with ds := .saw1 }))
    (fun t => (t.ds, t.dataOut)) = some (.normal, [0x1B, 0xAA]) := by decide
theorem test_ds2Sent : seen (exec (.ds2Sent 0xAA) (reads 0xAA { inPayload 0xD0 4 2 s0 with ds := .saw2 }))
    (fun t => (t.ds, t.dataOut)) = some (.normal, [0x1B, 0x1B]) := by decide
theorem test_ds2Other : seen (exec (.ds2Other 0x1B) (reads 0x1B { inPayload 0xD0 4 2 s0 with ds := .saw2 }))
    (fun t => (t.ds, t.dataOut)) = some (.normal, []) := by decide

/-! ### One instruction: packets and the TX engine (L2-42, L2-43) -/

/-- L1-2. -/
theorem test_pktData_received : seen (exec (.pktData .received 0x00 0x0007 0x00 [0x41, 0x42, 0x43, 0x44]) s0)
    (fun t => (t.dataOut, t.ackq, t.lastOp, t.fsm)) =
    some ([0x41, 0x42, 0x43, 0x44], [{ seq := 7, len := 4 }], 0xD0, .rh) := by decide
/-- L2-42 vector 6, its second chunk. -/
theorem test_pktData_sent :
    seen (exec (.pktData .sent 0x00 0x0001 0x00 [0x42, 0x1B, 0x1B, 0xAA])
      { s0 with txSeq := 1, cur := some { op := 0xD0, dest := 0, chunks := { first := [0x42, 0x1B, 0x1B, 0xAA], rest := [[0x1B, 0x43]] } } })
      (fun t => (t.txOut, t.txSeq, t.cur)) =
    some ([0x1B, 0x1B, 0x1B, 0, 0, 1, 0xD0, 0, 0, 4, 0x42, 0x1B, 0x1B, 0xAA], 2,
      some { op := 0xD0, dest := 0, chunks := { first := [0x1B, 0x43], rest := [] } }) := by decide
/-- L2-40 vector 11. -/
theorem test_pktCtrl_received : seen (exec (.pktCtrl .received 0x00 0x0003 0x77 0x07 [0x1B, 0x1B, 0x1B]) s0)
    (fun t => (t.anom, t.crq, t.lastOp, t.ackq, t.fsm)) =
    some (0x01, [{ seq := 3, op := 0x77, dest := 7, payload := [0x1B, 0x1B, 0x1B] }], 0x77, [], .rh) := by decide
/-- L2-42 vector 3. -/
theorem test_pktCtrl_sent :
    seen (exec (.pktCtrl .sent 0x00 0x0000 0xC0 0x00 [0x1B, 0x1B, 0x1B])
      { s0 with txq := [{ op := 0xC0, dest := 0, payload := [0x1B, 0x1B, 0x1B] }] }) (fun t => (t.txOut, t.txSeq, t.txq)) =
    some ([0x1B, 0x1B, 0x1B, 0, 0, 0, 0xC0, 0, 0, 3, 0x1B, 0x1B, 0x1B], 1, []) := by decide
/-- L2-43 vector 9. -/
theorem test_pktAck_received : seen (exec (.pktAck .received 0x0004 0x0000 0x0004) s0) (fun t => (t.crq, t.ackq, t.anom)) =
    some ([{ seq := 4, op := 0xA0, dest := 0, payload := [0, 0, 0, 4] }], [], 0) := by decide
/-- L2-43 vector 7. -/
theorem test_pktAck_sent :
    seen (exec (.pktAck .sent 0xFFFE 0x0007 0x0004) { s0 with txSeq := 0xFFFE, ackq := [{ seq := 7, len := 4 }] })
      (fun t => (t.txOut, t.txSeq, t.ackq)) =
    some ([0x1B, 0x1B, 0x1B, 0, 0xFF, 0xFE, 0xA0, 0, 0, 4, 0, 7, 0, 4], 0, []) := by decide
/-- L2-42 vector 13: the ACK goes before the command's next chunk. -/
theorem test_txStep_ackFirst :
    seen (exec .txStep { s0 with ackq := [{ seq := 0x30, len := 1 }], cur := some { op := 0xD0, dest := 0, chunks := { first := [5], rest := [] } } })
      (fun t => (t.txOut, t.ackq, t.cur.isSome)) =
    some ([0x1B, 0x1B, 0x1B, 0, 0, 0, 0xA0, 0, 0, 4, 0, 0x30, 0, 1], [], true) := by decide
/-- L1-1, stuffed by R184. -/
theorem test_txStep_stuffs :
    seen (exec .txStep { s0 with txq := [{ op := 0xD0, dest := 0, payload := [0x41, 0x42, 0x1B, 0x1B, 0x1B, 0x43, 0x44] }] })
      (fun t => (t.txOut, t.cur)) =
    some ([0x1B, 0x1B, 0x1B, 0, 0, 0, 0xD0, 0, 0, 8, 0x41, 0x42, 0x1B, 0x1B, 0xAA, 0x1B, 0x43, 0x44], none) := by decide
theorem test_stuffChunks :
    (stuffChunks 0xAA 4 [0x41, 0x1B, 0x1B, 0x42, 0x1B, 0x1B, 0x1B, 0x43]).toList =
      [[0x41, 0x1B, 0x1B, 0xAA], [0x42, 0x1B, 0x1B, 0xAA], [0x1B, 0x43]] ∧
    (stuffChunks 0xAA 4 [0x41, 0x42, 0x43, 0x1B, 0x1B]).toList = [[0x41, 0x42, 0x43, 0x1B], [0x1B]] ∧
    (stuffChunks 0xAA 4 [0x1B, 0x1B, 0x1B, 0x1B]).toList = [[0x1B, 0x1B, 0xAA, 0x1B], [0x1B]] ∧
    (stuffChunks 0x1B 8 [0x1B, 0x1B, 0x1B]).toList = [[0x1B, 0x1B, 0x1B, 0x1B]] := by decide
theorem test_plainChunks :
    (plainChunks 4 [1, 2, 3, 4, 5]).toList = [[1, 2, 3, 4], [5]] ∧
    (plainChunks 4 [1, 2, 3, 4, 5, 6, 7, 8]).toList = [[1, 2, 3, 4], [5, 6, 7, 8]] ∧ (plainChunks 4 []).toList = [[]] := by
  decide

/-! ### One instruction: commands and events (L2-44, L2-60, L2-70) -/

theorem test_cmdSend : seen (exec (.cmdSend 0xD0 0 [0x41, 0x42]) s0) (fun t => (t.txq, t.rspOut)) =
    some ([{ op := 0xD0, dest := 0, payload := [0x41, 0x42] }], [{ code := .ok, value := .none }]) := by decide
theorem test_cmdSend_notOpen : seen (exec (.cmdSend 0xC0 0 []) { s0 with txLive := false }) (fun t => (t.txq, t.anom, t.rspOut)) =
    some ([], 0x04, [{ code := .notOpen, value := .none }]) := by decide
theorem test_cmdStopRx : seen (exec .cmdStopRx { s0 with ds := .saw1 }) (fun t => (t.rxLive, t.txLive, t.ds)) =
    some (false, true, .saw1) := by decide
theorem test_cmdSetMaxOut : seen (exec (.cmdSetMaxOut 4) s0) (fun t => (t.maxOut, t.anom)) = some (4, 0) := by decide
theorem test_cmdClearAnom : seen (exec (.cmdClearAnom 0x01) { s0 with anom := 0x11 }) (fun t => (t.anom, t.irq)) =
    some (0x10, true) := by decide
theorem test_cmdPopData : seen (exec .cmdPopData { s0 with dataOut := [0x41, 0x42] }) (fun t => (t.dataOut, t.rspOut)) =
    some ([0x42], [{ code := .ok, value := .byte 0x41 }]) := by decide
theorem test_cmdPopCtrl :
    seen (exec .cmdPopCtrl { s0 with crq := [{ seq := 9, op := 0xC0, dest := 0, payload := [0x99, 0x98] }] })
      (fun t => (t.crq, t.rspOut)) =
    some ([], [{ code := .ok, value := .record { seq := 9, op := 0xC0, dest := 0, payload := [0x99, 0x98] } }]) := by decide
/-- P5's vector at its end, in part, with one ACK request outstanding. -/
theorem test_cmdReadStatus :
    seen (exec .cmdReadStatus { s0 with
        rxLive := false, lastOp := 0xD0, lastOpValid := true, anom := 0x24, ds := .saw2, ackq := [{ seq := 1, len := 1 }] })
      (fun t => t.rspOut.map fun r =>
        match r.value with
        | .status v => some (v.outstanding, v.lastOp, v.anom, v.irq)
        | _ => none) = some [some (1, 0xD0, 0x24, true)] := by decide
theorem test_cmdReserved : seen (exec .cmdReserved s0) (fun t => (t.anom, t.rspOut)) =
    some (0x08, [{ code := .badCmd, value := .none }]) := by decide
theorem test_linkErr :
    seen (exec .linkErr { s0 with dataOut := [0x41], ackq := [{ seq := 1, len := 1 }], txq := [{ op := 0xC0, dest := 0, payload := [2] }] })
      (fun t => (t.rxLive, t.txLive, t.txq, t.ackq, t.anom)) = some (false, false, [], [], 0x20) := by decide
theorem test_reset :
    seen (exec .reset { s0 with fsm := .rd, ds := .saw1, txSeq := 5, dataOut := [1], anom := 0x3F, txOut := [7], rxIn := [.eof] })
      (fun t => (t.ds, t.txSeq, t.anom, t.txOut, t.rxIn)) = some (.normal, 0, 0, [7], []) := by decide

/-! ### One step, and a table word run as the first instruction -/

theorem test_step_idle : seen (step State.reset) (fun t => t.rxIn) = some [] := by decide
theorem test_fetch_marker : seen (step (State.reset.withFetchWord 8 0x1B)) (fun t => (t.matchCount, t.rxIn, t.agenda)) =
    some (1, [], []) := by decide
theorem test_fetch_eof : seen (step (State.reset.withFetchWord 16 0x100)) (fun t => (t.rxLive, t.anom)) =
    some (false, 0x10) := by decide
theorem test_fetch_command : seen (step (State.reset.withFetchWord 32 0x00040002)) (fun t => (t.maxOut, t.cmdIn)) =
    some (4, []) := by decide
theorem test_fetch_send : seen (step (State.reset.withFetchWord 32 0x0000C000)) (fun t => (t.txq, t.cmdIn)) =
    some ([{ op := 0xC0, dest := 0, payload := [] }], []) := by decide

/-! ### Witnesses: values that meet the hypotheses of the statements, clause by clause, at the ends of their ranges -/

theorem tp_valid : tp.valid := by unfold Params.valid; decide

theorem witness_DecodeInvertsEncode :
    tp.valid ∧ (Instr.pktCtrl .received 0xFF 0xFFFF 0xA0 0x01 [0, 7, 0, 4]).wf tp = true ∧
    (Instr.pktAck .sent 0xFFFE 0xFFFF 0xFFFF).wf tp = true ∧ (Instr.ds2Sent 0xAA).wf tp = true :=
  ⟨tp_valid, by decide⟩

theorem witness_UnusedCommandBitsAreIgnored :
    ((0x00000000 : BitVec 32).extractLsb' 0 3).toNat = 0 ∧ ((0xFFFFFFFA : BitVec 32).extractLsb' 0 3).toNat = 2 ∧
    ((0x0000010B : BitVec 32).extractLsb' 0 3).toNat = 3 ∧ ((0x00000001 : BitVec 32).extractLsb' 0 3).toNat = 1 ∧
    4 ≤ ((0x00000004 : BitVec 32).extractLsb' 0 3).toNat ∧ 4 ≤ ((0x00000007 : BitVec 32).extractLsb' 0 3).toNat := by decide

theorem witness_StepRunsDecodedInstruction :
    ({ s0 with agenda := [.rxEngine], rxIn := [.eof] } : State).agenda = .rxEngine :: [] ∧
    decode tp .rxPort (.item RxItem.eof.code) = .ok .rxiEof ∧
    decode tp .rxPort (.item (RxItem.byte 0x1B).code) = .ok (.rxiByte 0x1B) ∧
    decode tp .cmdPort (.command 7 []) = .ok .cmdReserved ∧
    decode tp (.wire .received) (.packet [0x1B, 0x1B, 0x1B, 0, 0, 0, 0xD0, 0, 0, 0]) = .ok (.pktData .received 0 0 0 []) :=
  ⟨rfl, rfl, rfl, rfl, rfl⟩

theorem witness_StepLandsInputs :
    s0.agenda = [] ∧ ({ s0 with agenda := [.deliver [.byte 1, .eof]] } : State).agenda = .deliver [.byte 1, .eof] :: [] ∧
    ({ s0 with agenda := [.issue { word := 4, payload := [] }] } : State).agenda = [.issue { word := 4, payload := [] }] ∧
    s0.rxIn = [] ∧ s0.cmdIn = [] ∧
    decode tp (.wire .received) (.packet [0x1B, 0x41]) = .error .shortHeader := ⟨rfl, rfl, rfl, rfl, rfl, rfl⟩

/-- Each clause with `match` at 0, 1 and 2. -/
theorem witness_HeaderScanCountsMarkers :
    (Reading (reads 0x1B s0) 0x1B [] ∧ (reads 0x1B s0).fsm = .rh ∧ (reads 0x1B s0).matchCount.val < 2) ∧
    (reads 0x1B { s0 with matchCount := 1 }).matchCount.val < 2 ∧
    (Reading (reads 0x1B { s0 with matchCount := 2 }) 0x1B [] ∧ (reads 0x1B { s0 with matchCount := 2 }).matchCount = 2) ∧
    Reading (reads 0x1A s0) 0x1A [] := by unfold Reading; decide

theorem witness_ParameterByteIsStored :
    (Reading (reads 0x1B { s0 with fsm := .rp }) 0x1B [] ∧ (0 : Fin 7).val < 6) ∧
    (Reading (reads 0xFF { s0 with fsm := .rp, pcount := 5 }) 0xFF [] ∧ (5 : Fin 7).val < 6) := by unfold Reading; decide

/-- The flush just fits: 14 bytes held, two withheld, room for 16. -/
theorem witness_SeventhByteDecodesBlock :
    Reading (reads 4 { s0 with fsm := .rp, pcount := 6, ds := .saw2, dataOut := List.replicate 14 0 }) 4 [] ∧
    (List.replicate 14 (0 : Byte)).length + (withheld .saw2).length ≤ tp.dataqDepth := by unfold Reading; decide

theorem witness_EmptyPacketReturnsToHeader :
    Reading (reads 0 { s0 with fsm := .rp, pcount := 6, ds := .saw1 }) 0 [] ∧ be16 s0.pbuf[5] 0 = 0 ∧
    s0.dataOut.length + (withheld .saw1).length ≤ tp.dataqDepth := by unfold Reading; decide

/-- The last byte, with one place left on `crq` and, with `ACK_ALL`, on `ackq`; and a byte before the last. -/
theorem witness_ControlByteAccumulates :
    let s : State := reads 1 { inPayload 0xC0 1 0 s0 with
      params := { tp with ackAll := true }
      crq := List.replicate 3 { seq := 0, op := 0, dest := 0, payload := [] }
      ackq := List.replicate 3 { seq := 0, len := 0 } }
    Reading s 1 [] ∧ s.fsm = .rd ∧ s.hdrOp ≠ s.params.opData ∧ s.dcount + 1 = s.hdrLen ∧
    s.crq.length < s.params.crqDepth ∧ s.ackq.length < s.params.ackqDepth ∧
    (inPayload 0xC0 0xFFFF 0 s0).dcount + 1 ≠ (inPayload 0xC0 0xFFFF 0 s0).hdrLen := by unfold Reading; decide

/-- The payload byte `b` of a data packet in which the de-stuffer is in `d`, one of `len`, with `k` bytes held. -/
def dataState (d : Ds) (b : Byte) (len : Word) (k : Nat) : State :=
  reads b { inPayload 0xD0 len 0 s0 with ds := d, dataOut := List.replicate k 0 }

/-- One place left and one byte out; two places left and two out, at the last byte. -/
theorem witness_DataByteIsDestuffed :
    (ReadingData (dataState .normal 0x41 2 15) .normal 0x41 [] ∧ 15 + (destuff 0xAA .normal 0x41).2.length ≤ tp.dataqDepth) ∧
    (ReadingData (dataState .saw2 0xAA 1 14) .saw2 0xAA [] ∧ 14 + (destuff 0xAA .saw2 0xAA).2.length ≤ tp.dataqDepth) := by
  unfold ReadingData Reading; decide

/-- The last byte with two places left: with the bound off, and with a bound that the request exceeds by one. -/
theorem witness_CompletionRequestsAck :
    let s : State := dataState .normal 0x41 1 14
    let t : State := { s with maxOut := 1, ackq := [{ seq := 0, len := 0 }] }
    (ReadingData s s.ds 0x41 [] ∧ s.dcount + 1 = s.hdrLen ∧ s.dataOut.length + 2 ≤ s.params.dataqDepth ∧ s.maxOut = 0) ∧
    (ReadingData t t.ds 0x41 [] ∧ t.dcount + 1 = t.hdrLen ∧ t.dataOut.length + 2 ≤ t.params.dataqDepth ∧ t.maxOut ≠ 0 ∧
      t.maxOut.toNat < t.ackq.length + 1) ∧
    (∃ u, exec (.rxiByte 0x41) s = .next u) ∧ ∃ u, exec (.rxiByte 0x41) t = .next u :=
  ⟨by unfold ReadingData Reading; decide, by unfold ReadingData Reading; decide, ⟨_, rfl⟩, _, rfl⟩

theorem witness_EofEndsReader : s0.rxLive = true ∧ ({ s0 with rxIn := [.eof, .byte 1] } : State).rxIn = .eof :: [.byte 1] :=
  ⟨rfl, rfl⟩

theorem witness_StoppedReaderIsHeld :
    ({ reads 0x41 s0 with rxLive := false } : State).rxLive = false ∧ ofRxEngine (.rxiByte 0x41) = true ∧
    ofRxEngine .ds1Mark = true := by decide

/-- The last payload byte of a packet of opcode `op` with both queues of a completion full. -/
def fullState (op b : Byte) : State :=
  reads b { inPayload op 1 0 s0 with
    ackq := List.replicate 4 { seq := 0, len := 0 }, crq := List.replicate 4 { seq := 0, op := 0, dest := 0, payload := [] } }

/-- The seventh parameter byte, with two markers withheld and one place left for them. -/
def flushState (b : Byte) : State :=
  reads b { s0 with fsm := .rp, pcount := 6, ds := .saw2, dataOut := List.replicate 15 0 }

/-- The last payload byte of a control packet that is acknowledged too, with no place left for its ACK request. -/
def fullAckAll (b : Byte) : State := { fullState 0xC0 b with params := { tp with ackAll := true } }

/-- The six clauses, each with exactly too little room. -/
theorem witness_FullQueueHoldsReader :
    (ReadingData (dataState .normal 0x43 3 16) .normal 0x43 [] ∧ (0x43 : Byte) ≠ 0x1B ∧ tp.dataqDepth ≤ 16) ∧
    (ReadingData (dataState .saw1 0x43 3 15) .saw1 0x43 [] ∧ tp.dataqDepth < 15 + 2) ∧
    (ReadingData (dataState .saw2 0xAA 3 15) .saw2 0xAA [] ∧ (0xAA : Byte) = tp.litSentinel) ∧
    (Reading (fullState 0xD0 1) 1 [] ∧ (fullState 0xD0 1).hdrOp = tp.opData ∧
      (fullState 0xD0 1).dcount + 1 = (fullState 0xD0 1).hdrLen ∧ tp.ackqDepth ≤ (fullState 0xD0 1).ackq.length) ∧
    (Reading (fullAckAll 1) 1 [] ∧ (fullAckAll 1).hdrOp ≠ tp.opData ∧ (fullAckAll 1).params.ackAll = true ∧
      (fullAckAll 1).fsm = .rd ∧ (fullAckAll 1).dcount + 1 = (fullAckAll 1).hdrLen ∧
      (fullAckAll 1).params.ackqDepth ≤ (fullAckAll 1).ackq.length) ∧
    (Reading (fullState 0xC0 1) 1 [] ∧ (fullState 0xC0 1).hdrOp ≠ tp.opData ∧ tp.crqDepth ≤ (fullState 0xC0 1).crq.length) ∧
    (Reading (flushState 1) 1 [] ∧ (flushState 1).pcount = 6 ∧ (flushState 1).ds ≠ .normal ∧
      tp.dataqDepth < (flushState 1).dataOut.length + (withheld (flushState 1).ds).length) := by
  unfold ReadingData Reading; decide

theorem witness_NormalWithholdsOnlyMarkers :
    ReadingData (dataState .normal 0x1B 1 16) .normal 0x1B [] ∧ ReadingData (dataState .normal 0xAA 2 15) .normal 0xAA [] ∧
    (dataState .normal 0xAA 2 15).dataOut.length + 1 ≤ tp.dataqDepth := by unfold ReadingData Reading; decide

theorem witness_SawOneResolvesByNextByte :
    ReadingData (dataState .saw1 0x1B 1 16) .saw1 0x1B [] ∧ ReadingData (dataState .saw1 0xAA 2 14) .saw1 0xAA [] ∧
    (dataState .saw1 0xAA 2 14).dataOut.length + 2 ≤ tp.dataqDepth := by unfold ReadingData Reading; decide

theorem witness_SawTwoResolvesBySentinel :
    ReadingData (dataState .saw2 0xAA 1 14) .saw2 0xAA [] ∧ (dataState .saw2 0xAA 1 14).dataOut.length + 2 ≤ tp.dataqDepth ∧
    ReadingData (dataState .saw2 0x1B 2 16) .saw2 0x1B [] ∧ (0x1B : Byte) ≠ tp.litSentinel := by
  unfold ReadingData Reading; decide

theorem witness_TokensGiveTheirOutputs : ∀ t ∈ [Token.plain 0xAA, .lone 0xAA, .pair, .status 0x1B], t.ok 0xAA := by
  simp [Token.ok, Config.marker]

/-- The last chunk just fits, with an odd and with an even tail. -/
theorem witness_DestuffInvertsStuff :
    stuffChunks 0xAA 4 [0x1B, 0x1B, 0x1B] = { first := [0x1B, 0x1B, 0xAA, 0x1B], rest := [] } ∧
    markerTail [0x1B, 0x1B, 0x1B] % 2 = 1 ∧
    stuffChunks 0xAA 4 [0x41, 0x1B, 0x1B] = { first := [0x41, 0x1B, 0x1B, 0xAA], rest := [] } ∧
    markerTail [0x41, 0x1B, 0x1B] % 2 = 0 := by decide

theorem witness_WithheldMarkersComeFromData :
    ∃ t, exec (.rxiByte 0x1B) (dataState .normal 0x1B 1 16) = .next t ∧ t.ds ≠ .normal := ⟨_, rfl, by decide⟩

/-- Between packets, with two markers withheld, `k` bytes held, and one place left on `crq` and on `ackq`. -/
def waitState (k : Nat) : State :=
  { s0 with
    ds := .saw2, dataOut := List.replicate k 0
    ackq := List.replicate 3 { seq := 0, len := 0 }, crq := List.replicate 3 { seq := 0, op := 0, dest := 0, payload := [] } }

theorem witness_ControlPacketIsPosted :
    Waiting (waitState 14) ∧ (waitState 14).params.ackAll = false ∧ (0xC0 : Byte) ≠ (waitState 14).params.opData ∧
    ([0x1B] : List Byte) ≠ [] ∧ ([0x1B] : List Byte).length ≤ 65535 ∧
    (waitState 14).dataOut.length + (withheld (waitState 14).ds).length ≤ (waitState 14).params.dataqDepth ∧
    (waitState 14).crq.length < (waitState 14).params.crqDepth := by unfold Waiting; decide

theorem witness_ReceivedAckIsPosted :
    (waitState 14).params.valid ∧ Waiting (waitState 14) ∧ (waitState 14).params.ackAll = false ∧
    (waitState 14).dataOut.length + (withheld (waitState 14).ds).length ≤ (waitState 14).params.dataqDepth ∧
    (waitState 14).crq.length < (waitState 14).params.crqDepth := ⟨tp_valid, by unfold Waiting; decide⟩

/-- Two bytes flushed and three de-stuffed just fit behind eleven. -/
theorem witness_DataPacketIsDelivered :
    Waiting (waitState 11) ∧ ([0x1B, 0x1B, 0xAA, 0x41] : List Byte) ≠ [] ∧
    ([0x1B, 0x1B, 0xAA, 0x41] : List Byte).length ≤ 65535 ∧
    (waitState 11).dataOut.length + (withheld (waitState 11).ds).length +
      (destuffAll (waitState 11).params.litSentinel .normal [0x1B, 0x1B, 0xAA, 0x41]).2.length ≤
        (waitState 11).params.dataqDepth ∧
    (waitState 11).ackq.length < (waitState 11).params.ackqDepth := by unfold Waiting; decide

theorem witness_EmptyPacketIsLatched :
    Waiting (waitState 14) ∧
    (waitState 14).dataOut.length + (withheld (waitState 14).ds).length ≤ (waitState 14).params.dataqDepth := by
  unfold Waiting; decide

/-- L1-5, the good case. -/
theorem witness_CleanGarbageLeavesNoTrace :
    Waiting s0 ∧ (∀ pre post, ([0x55, 0x1B, 0x1B, 0x55] : List Byte) ≠ pre ++ [0x1B, 0x1B, 0x1B] ++ post) ∧
    ([0x55, 0x1B, 0x1B, 0x55] : List Byte).getLast? ≠ some 0x1B := by
  refine ⟨by unfold Waiting; decide, ?_, by decide⟩
  intro pre post h
  have hc := congrArg (List.count 0x1B) h
  rw [List.count_append, List.count_append] at hc
  have h3 : List.count (0x1B : Byte) [0x1B, 0x1B, 0x1B] = 3 := by decide
  have h2 : List.count (0x1B : Byte) [0x55, 0x1B, 0x1B, 0x55] = 2 := by decide
  omega

theorem witness_LeadingMarkerMisframes : Waiting s0 ∧ s0.dataOut.length + (withheld s0.ds).length ≤ s0.params.dataqDepth := by
  unfold Waiting; decide

theorem witness_AckPacketIsEmitted :
    s0.txLive = true ∧ ({ s0 with ackq := [{ seq := 7, len := 4 }] } : State).ackq = { seq := 7, len := 4 } :: [] := ⟨rfl, rfl⟩

/-- A last chunk, and a chunk with one behind it. -/
theorem witness_CurrentChunkIsEmitted :
    s0.txLive = true ∧ s0.ackq = [] ∧
    ({ s0 with cur := some { op := 0xD0, dest := 0, chunks := { first := [1], rest := [] } } } : State).cur =
      some { op := tp.opData, dest := 0, chunks := { first := [1], rest := [] } } ∧
    ({ s0 with cur := some { op := 0xC0, dest := 0, chunks := { first := [1], rest := [[2]] } } } : State).cur =
      some { op := 0xC0, dest := 0, chunks := { first := [1], rest := [[2]] } } ∧ (0xC0 : Byte) ≠ tp.opData :=
  ⟨rfl, rfl, rfl, rfl, by decide⟩

/-- An empty data command, and a control command of two packets with another command behind it. -/
theorem witness_NextCommandIsStarted :
    let s : State := { s0 with txq := [{ op := 0xD0, dest := 0, payload := [] }] }
    let t : State := { s0 with
      txq := [{ op := 0xC0, dest := 7, payload := [1, 2, 3, 4, 5, 6, 7, 8, 9] }, { op := 0xD0, dest := 0, payload := [] }] }
    (s.txLive = true ∧ s.ackq = [] ∧ s.cur = none ∧ s.txq = { op := 0xD0, dest := 0, payload := [] } :: [] ∧
      packetize s.params 0xD0 [] = { first := [], rest := [] } ∧ 0xD0 = s.params.opData) ∧
    (t.txLive = true ∧ t.ackq = [] ∧ t.cur = none ∧
      packetize t.params 0xC0 [1, 2, 3, 4, 5, 6, 7, 8, 9] = { first := [1, 2, 3, 4, 5, 6, 7, 8], rest := [[9]] } ∧
      0xC0 ≠ t.params.opData) := by decide

theorem witness_DeadOrIdleWriterIsHeld :
    ({ s0 with txLive := false, ackq := [{ seq := 7, len := 4 }] } : State).txLive = false ∧ TxIdle s0 ∧
    ofTxEngine .txStep = true ∧ ofTxEngine (.pktAck .sent 0 7 4) = true := by unfold TxIdle; decide

theorem witness_Legal : Legal s0 :=
  ⟨tp_valid, fun _ => by decide, fun h => absurd h (by decide), fun h => absurd h (by decide), fun h => absurd h (by decide),
    by decide, by decide, by decide, by decide, by decide, fun c h => absurd h (by simp [s0, State.reset]), by decide⟩

theorem witness_OnePacketPerTxStep : Legal s0 ∧ ∃ t, exec .txStep s0 = .next t := ⟨witness_Legal, _, rfl⟩

theorem witness_StepKeepsInvariants : Legal s0 ∧ ∃ t, step s0 = .next t := ⟨witness_Legal, _, rfl⟩

/-- Two ACK packets and two chunks pending, the counter about to wrap. -/
theorem witness_TxEngineDrains :
    let s : State := { s0 with
      txSeq := 0xFFFE, ackq := [{ seq := 7, len := 4 }, { seq := 8, len := 4 }]
      cur := some { op := 0xD0, dest := 0, chunks := { first := [1], rest := [[2]] } } }
    s.txLive = true ∧ s.txSeq.toNat ≤ 0xFFFE ∧ pending s = 4 := by decide

theorem witness_PlainChunksCutPayload : 1 ≤ tp.maxPayload ∧ (plainChunks 1 [1, 2]).toList.getLast? = some [2] := by decide

theorem witness_StuffedChunksFit : 2 ≤ tp.maxPayload ∧ (stuffChunks 0xAA 2 [0x1B, 0x1B]).toList ≠ [[]] := by decide

theorem witness_ChunkCountBounds : 4 ≤ ({ tp with maxPacket := 14 } : Params).maxPayload := by decide

theorem witness_OneAckPerDataPacket :
    Waiting s0 ∧ s0.ds = .normal ∧ s0.txLive = true ∧ TxIdle s0 ∧ ([0x41, 0x42, 0x43, 0x44] : List Byte).length = 4 ∧
    s0.dataOut.length + 4 ≤ s0.params.dataqDepth ∧ 1 ≤ s0.params.ackqDepth := by unfold Waiting TxIdle; decide

/-- A payload that ends in an unpaired marker, and one that does not; the queues just hold what they bring. -/
theorem witness_FramingRoundTrip :
    let s : State := { s0 with dataOut := List.replicate 14 0, ackq := List.replicate 3 { seq := 0, len := 0 } }
    (s.params.valid ∧ Waiting s ∧ s.ds = .normal ∧ s.dataOut.length + 2 ≤ s.params.dataqDepth ∧
      s.ackq.length + 1 ≤ s.params.ackqDepth) ∧
    (([(0xFFFE, [0x41, 0x1B])] : List (Word × List Byte)).map Prod.snd =
        (packetize s.params s.params.opData [0x41, 0x1B]).toList ∧
      endsUnpaired s.params.litSentinel s.params.maxPayload [] false [0x41, 0x1B] = true) ∧
    (([(0, [0x1B, 0x1B, 0xAA])] : List (Word × List Byte)).map Prod.snd =
        (packetize s.params s.params.opData [0x1B, 0x1B]).toList ∧
      endsUnpaired s.params.litSentinel s.params.maxPayload [] false [0x1B, 0x1B] = false) :=
  ⟨⟨tp_valid, by unfold Waiting; decide⟩, by decide, by decide⟩

/-- The command word `w` stands at the head of `cmd_in`, with a POP_DATA behind it. -/
def asks (w : BitVec 32) (s : State) : State := { s with cmdIn := [{ word := w, payload := [] }, { word := 4, payload := [] }] }

/-- One place left on `txq`, none left, and a dead writer. -/
theorem witness_SendIsQueuedHeldOrTurnedAway :
    let s : State := asks 0x0707C000 { s0 with txq := List.replicate 3 { op := 0, dest := 0, payload := [] } }
    let t : State := { s with txq := List.replicate 4 { op := 0, dest := 0, payload := [] } }
    Issued s (.cmdSend 0xC0 0x07 []) [{ word := 4, payload := [] }] ∧
    Issued t (.cmdSend 0xC0 0x07 []) [{ word := 4, payload := [] }] ∧
    (s.txLive = true ∧ s.txq.length < s.params.txqDepth) ∧ (t.txLive = true ∧ t.params.txqDepth ≤ t.txq.length) ∧
    ({ t with txLive := false } : State).txLive = false :=
  ⟨⟨_, rfl, by decide⟩, ⟨_, rfl, by decide⟩, by decide⟩

theorem witness_SessionCommandsWriteOneField :
    Issued (asks 0x00000001 s0) .cmdStopRx [{ word := 4, payload := [] }] ∧
    Issued (asks 0xFFFF0002 s0) (.cmdSetMaxOut 0xFFFF) [{ word := 4, payload := [] }] :=
  ⟨⟨_, rfl, by decide⟩, _, rfl, by decide⟩

theorem witness_PopsTakeTheOldest :
    (Issued (asks 4 s0) .cmdPopData [{ word := 4, payload := [] }] ∧ s0.dataOut = [] ∧
      ({ s0 with dataOut := [0x41] } : State).dataOut = 0x41 :: []) ∧
    (Issued (asks 5 s0) .cmdPopCtrl [{ word := 4, payload := [] }] ∧ s0.crq = [] ∧
      ({ s0 with crq := [{ seq := 9, op := 0xC0, dest := 0, payload := [] }] } : State).crq =
        { seq := 9, op := 0xC0, dest := 0, payload := [] } :: []) :=
  ⟨⟨⟨_, rfl, by decide⟩, rfl, rfl⟩, ⟨_, rfl, by decide⟩, rfl, rfl⟩

theorem witness_ClearAnomClearsMask :
    Issued (asks 0x0000FF03 { s0 with anom := 0x3F }) (.cmdClearAnom 0xFF) [{ word := 4, payload := [] }] ∧
    ∃ t, exec (.cmdClearAnom 0xFF) (asks 0x0000FF03 { s0 with anom := 0x3F }) = .next t :=
  ⟨⟨_, rfl, by decide⟩, _, rfl⟩

theorem witness_ReadStatusReturnsVector :
    Issued (asks 6 s0) .cmdReadStatus [{ word := 4, payload := [] }] ∧ (asks 6 s0).ackq.length ≤ 65535 :=
  ⟨⟨_, rfl, by decide⟩, by decide⟩

theorem witness_ReservedKindIsBadCmd : Issued (asks 0xFFFFFFFF s0) .cmdReserved [{ word := 4, payload := [] }] :=
  ⟨_, rfl, by decide⟩

theorem witness_ParametersAndAgendaAreKept :
    (∃ t, exec .reset s0 = .next t) ∧ ∃ t, step { s0 with agenda := [.reset] } = .next t := ⟨⟨_, rfl⟩, _, rfl⟩

theorem witness_OnlyResetRevivesAFlow :
    (∃ t, exec .reset { s0 with rxLive := false, txLive := false } = .next t ∧ t.rxLive = true ∧ t.txLive = true) ∧
    ∃ t, exec .linkErr s0 = .next t ∧ t.txLive = false := ⟨⟨_, rfl, rfl, rfl⟩, _, rfl, rfl⟩

theorem witness_AnomalyBitsAreSticky :
    (∃ t, exec (.cmdClearAnom 0x01) { s0 with anom := 0x01 } = .next t ∧ t.anom[(0 : Fin 8)] = false) ∧
    s0.anom[(6 : Fin 8)] = false ∧ s0.anom[(7 : Fin 8)] = false := ⟨⟨_, rfl, by decide⟩, by decide⟩

theorem witness_WireLogIsAppendOnly :
    ofTxEngine .reset = false ∧ ∃ t, exec .reset { s0 with txOut := [1] } = .next t := ⟨rfl, _, rfl⟩

theorem witness_AgentsKeepToTheirQueues :
    (ofRxEngine (.rxiByte 0x41) = true ∧ ∃ t, exec (.rxiByte 0x41) (reads 0x41 s0) = .next t) ∧
    (ofTxEngine .txStep = true ∧ ∃ t, exec .txStep s0 = .next t) ∧
    (ofHost .cmdPopData = true ∧ ∃ t, exec .cmdPopData s0 = .next t) := ⟨⟨rfl, _, rfl⟩, ⟨rfl, _, rfl⟩, rfl, _, rfl⟩

theorem witness_RowsTakeTheirEnginesStep :
    ofRxEngine .dsNMark = true ∧ ofTxEngine (.pktAck .sent 0 7 4) = true := ⟨rfl, rfl⟩

end Sys2Proof.Tests
end

section
/-! SUPPORT and RESULTS. RESET and the reset state (spec/10_state.md R43, 70_reset_and_hazards.md R310). -/

namespace Sys2Proof.Machine

/-- `SEQ_INIT` is fixed by the spec (D8), although other parameters of the reset state are left open (log entry 1). -/
@[simp] theorem State.reset_txSeq : State.reset.txSeq = 0 := rfl

@[simp] theorem State.reset_pbuf : State.reset.pbuf = #v[0, 0, 0, 0, 0, 0] := rfl

/-- R310 said through R43: what RESET leaves is the reset state, but for the configuration and for the logs, the port and the
agenda, which are not the block's (log entry 3). -/
@[simp] theorem exec_reset (s : State) :
    exec .reset s = .next { State.reset with
      params := s.params, txSeq := s.params.seqInit
      txOut := s.txOut, cmdIn := s.cmdIn, rspOut := s.rspOut, agenda := s.agenda } := rfl

/-- What `exec_reset` keeps of a state is, in the reset state, what the reset state holds. -/
theorem exec_reset_at_reset : exec .reset State.reset = .next State.reset := exec_reset State.reset

/-- Settles O51: the table field by field, in its order (a line each for the flows, the frame decoder, the de-stuffer with the
last opcode, the transmit side with its ACK bound, the host's queues with the anomalies), then RESET in the reset state. -/
theorem resetStateHasResetValues : Obligations.ResetStateHasResetValues := by
  unfold Obligations.ResetStateHasResetValues
  exact ⟨rfl, rfl,
    rfl, rfl, rfl, State.reset_pbuf, rfl, rfl, rfl, rfl, rfl, rfl, rfl,
    rfl, rfl, rfl,
    State.reset_txSeq, rfl, rfl, rfl, rfl,
    rfl, rfl, rfl,
    exec_reset_at_reset⟩

end Sys2Proof.Machine
end

section
/-! SUPPORT and RESULTS. The frame decoder (spec/40_decoder.md): what an enabled step of the RX engine leaves, first for any row,
then for the outcome of each rule from R122 to R137. -/

namespace Sys2Proof.Machine

/-! ### Enabled steps -/

/-- A row that the state selects, with its byte at the head of `rx_in` and room for its outputs (R120). -/
theorem rxRow_enabled {sel : Bool} {s : State} {b : Byte} {rest : List RxItem} {r : RxOut} (hsel : sel = true)
    (hr : Reading s b rest) (hf : r.fitsIn s = true) : rxRow sel s b r = .next (commit s r) := by
  simp [rxRow, hsel, consume_enabled hr hf]

/-- A row that the state selects, and whose outcome is that of `rx_byte`, is what RXI_BYTE does, held or not (R120). -/
theorem exec_rxiByte_eq_row {sel : Bool} {s : State} {b : Byte} {r : RxOut} (hsel : sel = true) (hb : rxByte s b = r) :
    exec (.rxiByte b) s = rxRow sel s b r := by
  rw [exec, execRxiByte, hb, rxRow, if_pos hsel]

/-- The row and RXI_BYTE leave the same state, where the step is enabled. -/
theorem rxRow_and_rxiByte {sel : Bool} {s t : State} {b : Byte} {rest : List RxItem} {r : RxOut} (hsel : sel = true)
    (hb : rxByte s b = r) (hr : Reading s b rest) (hf : r.fitsIn s = true) (ht : commit s r = t) :
    rxRow sel s b r = .next t ∧ exec (.rxiByte b) s = .next t := by
  rw [exec_rxiByte_eq_row hsel hb, rxRow_enabled hsel hr hf, ht]
  exact ⟨rfl, rfl⟩

theorem tail_rxIn_of_reading {s : State} {b : Byte} {rest : List RxItem} (hr : Reading s b rest) : s.rxIn.tail = rest := by
  obtain ⟨-, hin⟩ := hr
  rw [hin, List.tail_cons]

/-! ### What a completion requests and records -/

/-- Every data packet requests its ACK (R220). -/
theorem ackRequest_data {s : State} (hop : s.hdrOp = s.params.opData) :
    ackRequest s = some { seq := s.hdrSeq, len := s.hdrLen } := by
  simp [ackRequest, State.inData, hop]

/-- A control packet requests an ACK only with `ACK_ALL` (R220). -/
theorem ackRequest_ctrl {s : State} (hop : s.hdrOp ≠ s.params.opData) :
    ackRequest s = if s.params.ackAll then some { seq := s.hdrSeq, len := s.hdrLen } else none := by
  simp [ackRequest, State.inData, hop]

/-- A data packet posts no record (R135). -/
theorem ctrlRecord_data {s : State} (hop : s.hdrOp = s.params.opData) : ctrlRecord s = none := by
  simp [ctrlRecord, State.inData, hop]

/-- A control packet posts its whole payload (R135). -/
theorem ctrlRecord_ctrl {s : State} (hop : s.hdrOp ≠ s.params.opData) :
    ctrlRecord s = some { seq := s.hdrSeq, op := s.hdrOp, dest := s.hdrDest, payload := s.acc } := by
  simp [ctrlRecord, State.inData, hop]

theorem State.flagIf_eq (s : State) (c : Bool) (a : Anomaly) :
    s.flagIf c a = { s with anom := if c then s.anom ||| a.mask else s.anom } := by
  cases c <;> rfl

/-- The OUTS check is made where there is a request, and is then that of R221. -/
theorem flagIf_exceedsBound (s : State) :
    s.flagIf (exceedsBound s) .outs =
      { s with anom := if (ackRequest s).isSome then anomAfterRequest s else s.anom } := by
  have hanom : (if exceedsBound s then s.anom ||| Anomaly.outs.mask else s.anom) =
      if (ackRequest s).isSome then anomAfterRequest s else s.anom := by
    cases hreq : ackRequest s with
    | none => simp [exceedsBound, hreq]
    | some r => simp [exceedsBound, hreq, anomAfterRequest, Anomaly.mask, Anomaly.bit]
  rw [State.flagIf_eq, hanom]

/-! ### Room for an outcome -/

/-- A step that pushes nothing needs no room. -/
@[simp] theorem quiet_fitsIn (st s : State) : (quiet st).fitsIn s = true := rfl

/-- A step that pushes to `data_out` only. -/
theorem fitsIn_of_outs {r : RxOut} {s : State} (ha : r.ack = none) (hc : r.ctrl = none)
    (ho : s.dataOut.length + r.outs.length ≤ s.params.dataqDepth) : r.fitsIn s = true := by
  rw [fitsIn_iff]
  exact ⟨fun _ => ho, fun h => absurd ha h, fun h => absurd hc h⟩

/-- The ACK request of a completing packet is of its latched header, which the completion does not write (R220). -/
theorem payloadByte_ack (s : State) (outs : List Byte) :
    (payloadByte s outs).ack = if s.dcount + 1 = s.hdrLen then ackRequest s else none := by
  by_cases h : s.dcount + 1 = s.hdrLen
  · rw [payloadByte_last h, if_pos h]; rfl
  · rw [payloadByte_more h, if_neg h]

/-- The record of a completing packet (R135). -/
theorem payloadByte_ctrl (s : State) (outs : List Byte) :
    (payloadByte s outs).ctrl = if s.dcount + 1 = s.hdrLen then ctrlRecord s else none := by
  by_cases h : s.dcount + 1 = s.hdrLen
  · rw [payloadByte_last h, if_pos h]; rfl
  · rw [payloadByte_more h, if_neg h]

/-- A payload byte fits when its outputs do and, where it completes the packet, what the completion pushes does (R120). -/
theorem payloadByte_fitsIn_iff (s u : State) (outs : List Byte) :
    (payloadByte u outs).fitsIn s = true ↔
      (outs ≠ [] → s.dataOut.length + outs.length ≤ s.params.dataqDepth) ∧
      (u.dcount + 1 = u.hdrLen → ackRequest u ≠ none → s.ackq.length < s.params.ackqDepth) ∧
      (u.dcount + 1 = u.hdrLen → ctrlRecord u ≠ none → s.crq.length < s.params.crqDepth) := by
  rw [fitsIn_iff, payloadByte_outs, payloadByte_ack, payloadByte_ctrl]
  by_cases hd : u.dcount + 1 = u.hdrLen
  · simp only [hd, if_true, true_implies]
  · simp only [hd, if_false, ne_eq, not_true_eq_false, false_implies]

/-! ### The outcome of each rule -/

/-- R125, where the index is one of `pbuf`. -/
theorem rxParam_eq {s : State} (b : Byte) (h : s.pcount.val < 6) :
    rxParam s b = quiet { s with pbuf := s.pbuf.set s.pcount.val b h, pcount := s.pcount + 1 } := by
  have hset : s.pbuf.setIfInBounds s.pcount.val b = s.pbuf.set s.pcount.val b h := by
    ext i hi
    rw [Vector.getElem_setIfInBounds, Vector.getElem_set]
  rw [rxParam, hset]

/-- A step that pushes nothing, and whose outcome keeps the queues, pops its item (R120). -/
theorem commit_quiet {s st : State} {b : Byte} {rest : List RxItem} (hr : Reading s b rest) (hd : st.dataOut = s.dataOut)
    (ha : st.ackq = s.ackq) (hc : st.crq = s.crq) : commit s (quiet st) = { st with rxIn := rest } := by
  simp [commit, quiet, tail_rxIn_of_reading hr, ← hd, ← ha, ← hc]

/-- R126: the header latches, the counters and the opcode check, with every other field as it was. -/
theorem latchHeader_eq (s : State) (b : Byte) :
    latchHeader s b = { s with
      hdrRsv := s.pbuf[0], hdrSeq := be16 s.pbuf[1] s.pbuf[2], hdrOp := s.pbuf[3], hdrDest := s.pbuf[4]
      hdrLen := be16 s.pbuf[5] b, pcount := 0, ds := .normal
      anom := if s.pbuf[3] ∈ s.params.catalog then s.anom else s.anom ||| 0x01 } := by
  by_cases h : s.pbuf[3] ∈ s.params.catalog <;> simp [latchHeader, State.flagIf_eq, h, Anomaly.mask, Anomaly.bit]

/-- R126 with R127. -/
theorem commit_rxEmpty {s : State} {b : Byte} {rest : List RxItem} (hr : Reading s b rest) :
    commit s (rxEmpty s b) =
      { latchHeader s b with rxIn := rest, dataOut := s.dataOut ++ withheld s.ds, fsm := .rh } := by
  simp [commit, rxEmpty, latchHeader_eq, tail_rxIn_of_reading hr]

/-- R126 with R128. -/
theorem commit_rxEnterData {s : State} {b : Byte} {rest : List RxItem} (hr : Reading s b rest) :
    commit s (rxEnterData s b) =
      { latchHeader s b with
        rxIn := rest, dataOut := s.dataOut ++ withheld s.ds, fsm := .rd, dcount := 0, acc := [] } := by
  simp [commit, rxEnterData, latchHeader_eq, tail_rxIn_of_reading hr]

/-- The flush of the withheld markers is all that a parameter block pushes (R126). -/
theorem rxLast_fitsIn {s : State} (b : Byte) (hroom : s.dataOut.length + (withheld s.ds).length ≤ s.params.dataqDepth) :
    (rxLast s b).fitsIn s = true := by
  unfold rxLast
  split
  · exact fitsIn_of_outs rfl rfl hroom
  · exact fitsIn_of_outs rfl rfl hroom

/-- R131, with R133, R134, R136, R220 and R221 where it is the last byte: the de-stuffer goes to `d` and emits `outs`. -/
theorem commit_payloadByte_data {s : State} {b : Byte} {rest : List RxItem} (hr : Reading s b rest)
    (hop : s.hdrOp = s.params.opData) (d : Ds) (outs : List Byte) :
    commit s (payloadByte { s with ds := d } outs) = afterDataByte s rest d outs := by
  by_cases hlast : s.dcount + 1 = s.hdrLen
  · rw [payloadByte_last (s := { s with ds := d }) hlast, afterDataByte, if_pos hlast, complete, flagIf_exceedsBound,
      ackRequest_data (by exact hop), ctrlRecord_data (by exact hop)]
    simp [commit, tail_rxIn_of_reading hr, anomAfterRequest, State.inData, hop]
  · rw [payloadByte_more (s := { s with ds := d }) hlast, afterDataByte, if_neg hlast]
    simp [commit, tail_rxIn_of_reading hr]

/-- R132, with R133 to R136, R220 and R221 where it is the last byte. -/
theorem commit_rxCtrl {s : State} {b : Byte} {rest : List RxItem} (hr : Reading s b rest)
    (hop : s.hdrOp ≠ s.params.opData) : commit s (rxCtrl s b) = afterCtrlByte s rest b := by
  unfold rxCtrl
  by_cases hlast : s.dcount + 1 = s.hdrLen
  · rw [payloadByte_last (s := { s with acc := s.acc ++ [b] }) hlast, afterCtrlByte, if_pos hlast, complete,
      flagIf_exceedsBound, ackRequest_ctrl (by exact hop), ctrlRecord_ctrl (by exact hop)]
    cases s.params.ackAll <;> simp [commit, tail_rxIn_of_reading hr, anomAfterRequest, State.inData, hop]
  · rw [payloadByte_more (s := { s with acc := s.acc ++ [b] }) hlast, afterCtrlByte, if_neg hlast]
    simp [commit, tail_rxIn_of_reading hr]

/-- R137, where the reader is live. -/
theorem rxEof_enabled {s : State} {rest : List RxItem} (hl : s.rxLive = true) (hr : s.rxIn = .eof :: rest) :
    rxEof s = { s with rxIn := rest, rxLive := false, anom := s.anom ||| 0x10 } := by
  simp [rxEof, hl, hr, State.flag, Anomaly.mask, Anomaly.bit]

/-! ### The decoder's statements -/

/-- Settles O6: R122, R123 and R124, each by the row that the byte and the match count select. -/
theorem headerScanCountsMarkers : Obligations.HeaderScanCountsMarkers := by
  unfold Obligations.HeaderScanCountsMarkers
  intro s b rest hr hf
  refine ⟨?mark, ?mark3, ?other⟩
  case mark =>
    rintro rfl hm
    exact rxRow_and_rxiByte (by simp [hf, hm]) (rxByte_rh_mark hf hm) hr rfl (commit_quiet hr rfl rfl rfl)
  case mark3 =>
    rintro rfl hm
    exact rxRow_and_rxiByte (by simp [hf, hm]) (rxByte_rh_mark3 hf hm) hr rfl (commit_quiet hr rfl rfl rfl)
  case other =>
    intro hb
    exact rxRow_and_rxiByte (by simp [hf, show b ≠ Config.marker from hb]) (rxByte_rh_other hf hb) hr rfl
      (commit_quiet hr rfl rfl rfl)

/-- Settles O7: below the seventh byte the index is one of `pbuf`, and R125 pushes nothing. -/
theorem parameterByteIsStored : Obligations.ParameterByteIsStored := by
  unfold Obligations.ParameterByteIsStored
  intro s b rest hp hr hf
  have hfits : (rxParam s b).fitsIn s = true := quiet_fitsIn _ s
  refine rxRow_and_rxiByte (by simp [hf, hp]) (rxByte_rp_byte hf hp) hr hfits ?_
  rw [rxParam_eq b hp]
  exact commit_quiet hr rfl rfl rfl

/-- Settles O8: the latches are those of R126, and the length chooses between R127 and R128. -/
theorem seventhByteDecodesBlock : Obligations.SeventhByteDecodesBlock := by
  unfold Obligations.SeventhByteDecodesBlock
  intro s b rest hr hf hp hroom
  have hsel : (decide (s.fsm = .rp) && decide (s.pcount = 6)) = true := by simp [hf, hp]
  refine ⟨?_, exec_rxiByte_eq_row hsel (rxByte_rp_last hf hp)⟩
  rw [exec, execRpLast, rxRow_enabled hsel hr (rxLast_fitsIn b hroom)]
  by_cases h0 : be16 s.pbuf[5] b = 0
  · rw [rxLast, if_pos h0, commit_rxEmpty hr, latchHeader_eq]
    simp only [if_pos h0]
  · rw [rxLast, if_neg h0, commit_rxEnterData hr, latchHeader_eq]
    simp only [if_neg h0]

/-- Settles O9: at length 0 the outcome of RP_LAST is that of PKT_EMPTY. -/
theorem emptyPacketReturnsToHeader : Obligations.EmptyPacketReturnsToHeader := by
  unfold Obligations.EmptyPacketReturnsToHeader
  intro s b rest hr hf hp h0 hroom
  have hlast : rxLast s b = rxEmpty s b := if_pos h0
  have hempty : exec (.pktEmpty b) s = .next (commit s (rxEmpty s b)) :=
    rxRow_enabled (by simp [hf, hp, h0]) hr (fitsIn_of_outs rfl rfl hroom)
  have hrow : exec (.rpLast b) s = .next (commit s (rxLast s b)) :=
    rxRow_enabled (by simp [hf, hp]) hr (rxLast_fitsIn b hroom)
  refine ⟨?_, by rw [hrow, hlast, hempty]⟩
  rw [hempty, commit_rxEmpty hr, latchHeader_eq, h0]

/-- Settles O10: a control byte emits nothing, so only what the last one posts needs room. -/
theorem controlByteAccumulates : Obligations.ControlByteAccumulates := by
  unfold Obligations.ControlByteAccumulates
  intro s b rest hr hf hop hcrq hackq
  have hroom : (rxCtrl s b).fitsIn s = true := by
    rw [rxCtrl, payloadByte_fitsIn_iff, ackRequest_ctrl (by exact hop)]
    exact ⟨fun h => absurd rfl h, fun hlast hreq => hackq hlast (by_contra fun hall => hreq (if_neg hall)),
      fun hlast _ => hcrq hlast⟩
  exact rxRow_and_rxiByte (by simp [hf, State.inData, hop]) (rxByte_rd_ctrl hf hop) hr hroom (commit_rxCtrl hr hop)

/-- Settles O11: no record is posted, so room is needed for the de-stuffer's output and the last byte's ACK request. -/
theorem dataByteIsDestuffed : Obligations.DataByteIsDestuffed := by
  unfold Obligations.DataByteIsDestuffed
  intro s b rest hd hroom
  obtain ⟨hr, hf, hop, -, hackq⟩ := hd
  have hfits : (rxData s b).fitsIn s = true := by
    rw [rxData, payloadByte_fitsIn_iff, ctrlRecord_data (by exact hop)]
    exact ⟨fun _ => hroom, fun hlast _ => hackq hlast, fun _ h => absurd rfl h⟩
  have hsel : (decide (s.fsm = .rd) && s.inData) = true := by simp [hf, State.inData, hop]
  refine ⟨?_, exec_rxiByte_eq_row hsel (rxByte_rd_data hf hop)⟩
  rw [exec, execRdData, rxRow_enabled hsel hr hfits, rxData, commit_payloadByte_data hr hop]

/-- Settles O13: RXI_EOF with the reader live. -/
theorem eofEndsReader : Obligations.EofEndsReader := by
  unfold Obligations.EofEndsReader
  intro s rest hl hr
  rw [exec, execRxiEof, rxEof_enabled hl hr]

end Sys2Proof.Machine
end

section
/-! SUPPORT and RESULTS. The de-stuffer's rows (spec/41_destuff.md R160 to R166). -/

namespace Sys2Proof.Machine

/-! ### The de-stuffer, a case at a time -/

/-- R161. -/
@[simp] theorem destuff_normal_marker (sentinel : Byte) : destuff sentinel .normal Config.marker = (.saw1, []) := rfl

/-- R162. -/
theorem destuff_normal_other (sentinel : Byte) {b : Byte} (hb : b ≠ Config.marker) :
    destuff sentinel .normal b = (.normal, [b]) := if_neg hb

/-- R163. -/
@[simp] theorem destuff_saw1_marker (sentinel : Byte) : destuff sentinel .saw1 Config.marker = (.saw2, []) := rfl

/-- R164. -/
theorem destuff_saw1_other (sentinel : Byte) {b : Byte} (hb : b ≠ Config.marker) :
    destuff sentinel .saw1 b = (.normal, [Config.marker, b]) := if_neg hb

/-- R165: the sentinel is tested first, so it may be the marker itself. -/
@[simp] theorem destuff_saw2_sentinel (sentinel : Byte) :
    destuff sentinel .saw2 sentinel = (.normal, [Config.marker, Config.marker]) := if_pos rfl

/-- R166. -/
theorem destuff_saw2_other {sentinel b : Byte} (hb : b ≠ sentinel) : destuff sentinel .saw2 b = (.normal, []) := if_neg hb

/-! ### A row of the de-stuffer -/

/-- A payload byte of a data packet selects the rows of the de-stuffer's state. -/
theorem destuffing_of_readingData {s : State} {d : Ds} {b : Byte} {rest : List RxItem} (h : ReadingData s d b rest) :
    s.destuffing d = true := by
  obtain ⟨-, hf, hop, hd, -⟩ := h
  simp [State.destuffing, State.inData, hf, hop, hd]

/-- `rx_byte` on a payload byte of a data packet, where the de-stuffer goes to `d'` and emits `outs` (R131). -/
theorem rxByte_of_destuff {s : State} {d d' : Ds} {b : Byte} {rest : List RxItem} {outs : List Byte}
    (h : ReadingData s d b rest) (hde : destuff s.params.litSentinel d b = (d', outs)) :
    rxByte s b = payloadByte { s with ds := d' } outs := by
  obtain ⟨-, hf, hop, hd, -⟩ := h
  rw [rxByte_rd_data hf hop, rxData, hd, hde]

/-- The step is enabled where there is room for the emitted bytes, if any: `ReadingData` has the room for the ACK request, and a
data packet posts no record (R120, R135). -/
theorem payloadByte_fitsIn_of_readingData {s : State} {d : Ds} {b : Byte} {rest : List RxItem} {outs : List Byte}
    (h : ReadingData s d b rest) (d' : Ds) (hroom : outs ≠ [] → s.dataOut.length + outs.length ≤ s.params.dataqDepth) :
    (payloadByte { s with ds := d' } outs).fitsIn s = true := by
  obtain ⟨-, -, hop, -, hackq⟩ := h
  rw [payloadByte_fitsIn_iff, ctrlRecord_data (by exact hop)]
  exact ⟨hroom, fun hlast _ => hackq hlast, fun _ hrec => absurd rfl hrec⟩

/-- A selected row that does what `destuff` says leaves the state after that byte, and so does RXI_BYTE. -/
theorem destuffRow_and_rxiByte {sel : Bool} {s : State} {d d' : Ds} {b : Byte} {rest : List RxItem} {outs : List Byte}
    (h : ReadingData s d b rest) (hsel : sel = true) (hde : destuff s.params.litSentinel d b = (d', outs))
    (hroom : outs ≠ [] → s.dataOut.length + outs.length ≤ s.params.dataqDepth) :
    rxRow sel s b (payloadByte { s with ds := d' } outs) = .next (afterDataByte s rest d' outs) ∧
    exec (.rxiByte b) s = .next (afterDataByte s rest d' outs) := by
  have hfits := payloadByte_fitsIn_of_readingData h d' hroom
  have hrx := rxByte_of_destuff h hde
  obtain ⟨hr, -, hop, -, -⟩ := h
  exact rxRow_and_rxiByte hsel hrx hr hfits (commit_payloadByte_data hr hop d' outs)

/-! ### The de-stuffer's statements -/

/-- Settles O17: DS_N_MARK takes the marker and DS_N_OTHER every other byte, the sentinel among them. -/
theorem normalWithholdsOnlyMarkers : Obligations.NormalWithholdsOnlyMarkers := by
  unfold Obligations.NormalWithholdsOnlyMarkers
  intro s b rest h
  have hds := destuffing_of_readingData h
  refine ⟨?marker, ?other⟩
  case marker =>
    rintro rfl
    exact destuffRow_and_rxiByte h hds (destuff_normal_marker _) (absurd rfl)
  case other =>
    intro (hb : b ≠ Config.marker) hroom
    exact destuffRow_and_rxiByte h (by simp [hds, hb]) (destuff_normal_other _ hb) fun _ => hroom

/-- Settles O18: DS_1_MARK takes the marker and DS_1_OTHER every other byte, which comes out behind the withheld marker. -/
theorem sawOneResolvesByNextByte : Obligations.SawOneResolvesByNextByte := by
  unfold Obligations.SawOneResolvesByNextByte
  intro s b rest h
  have hds := destuffing_of_readingData h
  refine ⟨?marker, ?other⟩
  case marker =>
    rintro rfl
    exact destuffRow_and_rxiByte h hds (destuff_saw1_marker _) (absurd rfl)
  case other =>
    intro (hb : b ≠ Config.marker) hroom
    exact destuffRow_and_rxiByte h (by simp [hds, hb]) (destuff_saw1_other _ hb) fun _ => hroom

/-- Settles O19: DS_2_SENT takes the sentinel and DS_2_OTHER every other byte, which emits nothing and so needs no room. -/
theorem sawTwoResolvesBySentinel : Obligations.SawTwoResolvesBySentinel := by
  unfold Obligations.SawTwoResolvesBySentinel
  intro s b rest h
  have hds := destuffing_of_readingData h
  refine ⟨?sentinel, ?other⟩
  case sentinel =>
    rintro rfl hroom
    exact destuffRow_and_rxiByte h (by simp [hds]) (destuff_saw2_sentinel _) fun _ => hroom
  case other =>
    intro hb
    exact destuffRow_and_rxiByte h (by simp [hds, hb]) (destuff_saw2_other hb) (absurd rfl)

end Sys2Proof.Machine
end

section
/-! SUPPORT and RESULTS. The ACK tracker's emission (spec/43_ack_tracker.md R225): the TX engine's step where the writer is live
and a packet is picked, then the packet of the oldest ACK request. -/

namespace Sys2Proof.Machine

/-! ### Enabled steps of the TX engine -/

/-- TX_STEP emits the packet that is picked (R180). -/
theorem txTurn_enabled {s : State} {e : Emission} (hl : s.txLive = true) (hp : txPick s = some e) : txTurn s = emit e := by
  simp [txTurn, hl, hp]

/-- The row of a packet emits it, where it is the one picked, with the next sequence number (R181, R182). -/
theorem txSends_enabled {s : State} {e : Emission} (hl : s.txLive = true) :
    txSends s (some e) Config.hdrRsv s.txSeq e.op e.dest e.body = emit e :=
  if_pos ⟨hl, rfl, rfl, rfl, rfl, rfl⟩

/-! ### The packet of the oldest request -/

/-- The ACK packet for `r` with its payload of R86, and the state with `rs` left of `ackq` (R225). -/
def ackEmission (s : State) (r : AckReq) (rs : List AckReq) : Emission :=
  { op := s.params.opAck, dest := s.params.ackDest, body := ackBody r.seq r.len, st := { s with ackq := rs } }

theorem txAck_of_request {s : State} {r : AckReq} {rs : List AckReq} (hq : s.ackq = r :: rs) :
    txAck s = some (ackEmission s r rs) := by
  rw [txAck, hq]
  rfl

/-- The emission writes `ackq`, `tx_out` and `tx_seq`, and nothing else. -/
theorem emit_ackEmission (s : State) (r : AckReq) (rs : List AckReq) :
    emit (ackEmission s r rs) = { s with
      ackq := rs
      txOut := s.txOut ++ packet s.txSeq s.params.opAck s.params.ackDest (ackBody r.seq r.len)
      txSeq := nextseq s.txSeq } := rfl

/-- PKT_ACK with the next sequence number and the fields of the oldest request is enabled (R225). -/
theorem exec_pktAck_sent {s : State} {r : AckReq} {rs : List AckReq} (hl : s.txLive = true) (hq : s.ackq = r :: rs) :
    exec (.pktAck .sent s.txSeq r.seq r.len) s = .next (emit (ackEmission s r rs)) := by
  have hsend := txSends_enabled (e := ackEmission s r rs) hl
  rw [← txAck_of_request hq] at hsend
  exact congrArg Host.Outcome.next hsend

/-- An ACK request goes before the host's packets (R180). -/
theorem exec_txStep_ack {s : State} {r : AckReq} {rs : List AckReq} (hl : s.txLive = true) (hq : s.ackq = r :: rs) :
    exec .txStep s = .next (emit (ackEmission s r rs)) := by
  rw [exec, execTxStep, txTurn_enabled hl (txAck_txPick (txAck_of_request hq))]

/-- Settles O31: the row and TX_STEP both come to the emission of the oldest request. -/
theorem ackPacketIsEmitted : Obligations.AckPacketIsEmitted := by
  unfold Obligations.AckPacketIsEmitted
  intro s r rs hl hq
  rw [exec_txStep_ack hl hq, exec_pktAck_sent hl hq, emit_ackEmission]
  exact ⟨rfl, rfl⟩

end Sys2Proof.Machine
end

section
/-! SUPPORT and RESULTS. The host's commands other than SEND (spec/44_host_ops.md R242 to R249), and the interrupt output
(60_exceptions.md R282). -/

namespace Sys2Proof.Machine

/-! ### The response to the command at the head of `cmd_in` -/

/-- A command that completes leaves the port, where what stood behind it stays, and its response joins the others (R249). `u` is
`s` with the command's effect on the block, which touches neither the port nor the responses. -/
theorem exec_completes {s u : State} {i : Instr} {rest : List HostCommand} {code : RspCode} {value : RspValue}
    (h : Issued s i rest) (hexec : exec i s = .next (u.answer code value)) (hcmd : u.cmdIn = s.cmdIn)
    (hrsp : u.rspOut = s.rspOut) :
    exec i s = .next { u with cmdIn := rest, rspOut := s.rspOut ++ [{ code := code, value := value }] } := by
  obtain ⟨c, hin, -⟩ := h
  rw [hexec, State.answer, hcmd, hin, List.tail_cons, hrsp]

/-! ### What each command does before it is answered -/

/-- R242. -/
theorem exec_cmdStopRx (s : State) : exec .cmdStopRx s = .next (State.answer { s with rxLive := false } .ok .none) := rfl

/-- R243. -/
theorem exec_cmdSetMaxOut (s : State) (v : Word) :
    exec (.cmdSetMaxOut v) s = .next (State.answer { s with maxOut := v } .ok .none) := rfl

/-- R244. -/
theorem exec_cmdClearAnom (s : State) (mask : Byte) :
    exec (.cmdClearAnom mask) s = .next (State.answer { s with anom := s.anom &&& ~~~mask } .ok .none) := rfl

/-- R245, with a byte to take. -/
theorem exec_cmdPopData_of_cons {s : State} {b : Byte} {bs : List Byte} (hd : s.dataOut = b :: bs) :
    exec .cmdPopData s = .next (State.answer { s with dataOut := bs } .ok (.byte b)) := by
  rw [exec, execCmdPopData, hd]

/-- R245, with none. -/
theorem exec_cmdPopData_of_nil {s : State} (hd : s.dataOut = []) :
    exec .cmdPopData s = .next (s.answer .empty (.byte 0x00)) := by
  rw [exec, execCmdPopData, hd]

/-- R246, with a record to take. -/
theorem exec_cmdPopCtrl_of_cons {s : State} {r : CtrlRec} {rs : List CtrlRec} (hq : s.crq = r :: rs) :
    exec .cmdPopCtrl s = .next (State.answer { s with crq := rs } .ok (.record r)) := by
  rw [exec, execCmdPopCtrl, hq]

/-- R246, with none. -/
theorem exec_cmdPopCtrl_of_nil {s : State} (hq : s.crq = []) : exec .cmdPopCtrl s = .next (s.answer .empty .none) := by
  rw [exec, execCmdPopCtrl, hq]

/-- R247. -/
theorem exec_cmdReadStatus (s : State) : exec .cmdReadStatus s = .next (s.answer .ok (.status s.status)) := rfl

/-- R248: BADCMD is bit 3 (R281). -/
theorem exec_cmdReserved (s : State) :
    exec .cmdReserved s = .next (State.answer { s with anom := s.anom ||| 0x08 } .badCmd .none) := rfl

/-! ### The interrupt output and the anomaly bits -/

/-- R282. -/
theorem State.irq_iff (s : State) : s.irq = true ↔ s.anom ≠ 0 := bne_iff_ne

/-- A word is not 0 where some bit of it is set. -/
theorem ne_zero_iff_exists_bit {w : Nat} (x : BitVec w) : x ≠ 0#w ↔ ∃ k : Fin w, x[k] = true := by
  constructor
  · intro hne
    by_contra hclear
    refine hne (BitVec.eq_of_getElem_eq fun i hi => ?_)
    rw [BitVec.getElem_zero]
    exact Bool.eq_false_iff.mpr fun hset => hclear ⟨⟨i, hi⟩, hset⟩
  · rintro ⟨k, hset⟩ rfl
    simp at hset

/-- R282, bit by bit. -/
theorem State.irq_iff_exists_bit (s : State) : s.irq = true ↔ ∃ k : Fin 8, s.anom[k] = true :=
  s.irq_iff.trans (ne_zero_iff_exists_bit s.anom)

/-- Write one to clear: a bit stays unless its mask bit is set (R244). -/
theorem getElem_and_not_mask (anom mask : Byte) (k : Fin 8) : (anom &&& ~~~mask)[k] = (anom[k] && !mask[k]) := by
  rw [Fin.getElem_fin, BitVec.getElem_and, BitVec.getElem_not, Fin.getElem_fin, Fin.getElem_fin]

/-! ### The status vector -/

/-- S0 is the code of R23. -/
theorem fsmCode_toNat (f : Fsm) : (fsmCode f).toNat = match f with | .rh => 0 | .rp => 1 | .rd => 2 := by
  cases f <;> rfl

/-- S3 is the code of R29. -/
theorem dsCode_toNat (d : Ds) : (dsCode d).toNat = match d with | .normal => 0 | .saw1 => 1 | .saw2 => 2 := by
  cases d <;> rfl

/-- S1 is wide enough for `match`. -/
theorem status_matchCount_toNat (s : State) : s.status.matchCount.toNat = s.matchCount.val :=
  Nat.mod_eq_of_lt (Nat.lt_trans s.matchCount.isLt (by decide))

/-- S2 is wide enough for `pcount`. -/
theorem status_pcount_toNat (s : State) : s.status.pcount.toNat = s.pcount.val :=
  Nat.mod_eq_of_lt (Nat.lt_trans s.pcount.isLt (by decide))

/-- S18: a SEND is in progress. -/
theorem status_txBusy_iff (s : State) : s.status.txBusy = true ↔ s.cur ≠ none := Option.isSome_iff_ne_none

/-! ### The host's statements -/

/-- Settles O44: each command's one write, then its response. -/
theorem sessionCommandsWriteOneField : Obligations.SessionCommandsWriteOneField := by
  unfold Obligations.SessionCommandsWriteOneField
  refine fun s v rest => ⟨fun hstop => ?stopRx, fun hset => ?setMaxOut⟩
  case stopRx => exact exec_completes hstop (exec_cmdStopRx s) rfl rfl
  case setMaxOut => exact exec_completes hset (exec_cmdSetMaxOut s v) rfl rfl

/-- Settles O45: each POP by whether its queue is empty. -/
theorem popsTakeTheOldest : Obligations.PopsTakeTheOldest := by
  unfold Obligations.PopsTakeTheOldest
  refine fun s rest => ⟨fun hdata => ⟨fun b bs hd => ?byte, fun hd => ?noByte⟩,
    fun hctrl => ⟨fun r rs hq => ?record, fun hq => ?noRecord⟩⟩
  case byte => exact exec_completes hdata (exec_cmdPopData_of_cons hd) rfl rfl
  case noByte => exact exec_completes hdata (exec_cmdPopData_of_nil hd) rfl rfl
  case record => exact exec_completes hctrl (exec_cmdPopCtrl_of_cons hq) rfl rfl
  case noRecord => exact exec_completes hctrl (exec_cmdPopCtrl_of_nil hq) rfl rfl

/-- Settles O46: the bits after are those of `anom and not mask`, and the interrupt is up where one of them is set. -/
theorem clearAnomClearsMask : Obligations.ClearAnomClearsMask := by
  unfold Obligations.ClearAnomClearsMask
  refine ⟨fun s mask rest h => ⟨?effect, fun t ht => ?bits⟩, fun s => ⟨s.irq_iff, s.irq_iff_exists_bit⟩⟩
  case effect => exact exec_completes h (exec_cmdClearAnom s mask) rfl rfl
  case bits =>
    rw [exec_cmdClearAnom] at ht
    obtain rfl := Host.Outcome.next.inj ht
    refine ⟨getElem_and_not_mask s.anom mask, ?_⟩
    rw [State.irq_iff_exists_bit]
    simp only [State.answer_anom, getElem_and_not_mask, Bool.and_eq_true, Bool.not_eq_true']

/-- Settles O47: the vector is `State.status`, in the order of R39 (a line each for the frame decoder and the de-stuffer, the
latched header with the last opcode, the transmit side with S14, the levels with TX_BUSY, the flows with the anomalies). -/
theorem readStatusReturnsVector : Obligations.ReadStatusReturnsVector := by
  unfold Obligations.ReadStatusReturnsVector
  intro s rest h
  exact ⟨s.status, exec_completes h (exec_cmdReadStatus s) rfl rfl,
    fsmCode_toNat s.fsm, status_matchCount_toNat s, status_pcount_toNat s, dsCode_toNat s.ds, rfl,
    rfl, rfl, rfl, rfl, rfl, rfl, rfl,
    rfl, rfl, outstandingField_toNat,
    rfl, rfl, rfl, status_txBusy_iff s,
    rfl, rfl, rfl, s.irq_iff⟩

/-- Settles O48: BADCMD is flagged, and the answer says so. -/
theorem reservedKindIsBadCmd : Obligations.ReservedKindIsBadCmd := by
  unfold Obligations.ReservedKindIsBadCmd
  intro s rest h
  exact exec_completes h (exec_cmdReserved s) rfl rfl

end Sys2Proof.Machine
end

section
/-! SUPPORT and RESULTS. The transport's error input (spec/60_exceptions.md R283). -/

namespace Sys2Proof.Machine

/-- R283, with `Flag(LINK)` as the bit of `anom` that it sets (R281). -/
theorem exec_linkErr (s : State) :
    exec .linkErr s = .next { s with
      rxLive := false, txLive := false, txq := [], cur := none, ackq := [], anom := s.anom ||| 0x20 } := rfl

/-- A second LINK_ERR changes nothing: each write but the flag's is of a constant, and a bit already set stays as it is. -/
theorem exec_linkErr_idem {s t : State} (h : exec .linkErr s = .next t) : exec .linkErr t = .next t := by
  have hlink : s.anom ||| 0x20 ||| 0x20 = s.anom ||| 0x20 := by rw [BitVec.or_assoc, BitVec.or_self]
  rw [exec_linkErr] at h
  obtain rfl := Host.Outcome.next.inj h
  rw [exec_linkErr, hlink]

/-- Settles O49: the state R283 writes, then its idempotence. -/
theorem linkErrEndsBothFlows : Obligations.LinkErrEndsBothFlows := by
  unfold Obligations.LinkErrEndsBothFlows
  exact fun s => ⟨_, exec_linkErr s, rfl, exec_linkErr_idem (exec_linkErr s)⟩

end Sys2Proof.Machine
end

section
/-! SUPPORT and RESULTS. Codes (spec/30_encoding.md): the fields of a command word and the row of a packet, then how each code
reads back. -/

namespace Sys2Proof

/-! ### The fields of a command word -/

@[simp] theorem commandWord_kind (kind : BitVec 3) (low : Byte) (high : Word) :
    (commandWord kind low high).extractLsb' 0 3 = kind :=
  BitVec.extractLsb'_append_eq_right (a := high ++ low ++ 0#5)

@[simp] theorem commandWord_low (kind : BitVec 3) (low : Byte) (high : Word) :
    (commandWord kind low high).extractLsb' 8 8 = low := by
  have hkind : (commandWord kind low high).extractLsb' 8 8 = (high ++ low ++ 0#5).extractLsb' 5 8 :=
    BitVec.extractLsb'_append_eq_of_le (by decide)
  rw [hkind, BitVec.extractLsb'_append_eq_of_le (by decide)]
  exact BitVec.extractLsb'_append_eq_right

/-- Bits from 16 on are those of the high half. -/
theorem commandWord_high (kind : BitVec 3) (low : Byte) (high : Word) (n : Nat) :
    (commandWord kind low high).extractLsb' 16 n = high.extractLsb' 0 n := by
  have hkind : (commandWord kind low high).extractLsb' 16 n = (high ++ low ++ 0#5).extractLsb' 13 n :=
    BitVec.extractLsb'_append_eq_of_le (by decide)
  rw [hkind, BitVec.extractLsb'_append_eq_of_le (by decide), BitVec.extractLsb'_append_eq_of_le (by decide)]

@[simp] theorem commandWord_high16 (kind : BitVec 3) (low : Byte) (high : Word) :
    (commandWord kind low high).extractLsb' 16 16 = high := by
  rw [commandWord_high, BitVec.extractLsb'_eq_self]

@[simp] theorem commandWord_high8 (kind : BitVec 3) (low top dest : Byte) :
    (commandWord kind low (top ++ dest)).extractLsb' 16 8 = dest := by
  rw [commandWord_high, BitVec.extractLsb'_append_eq_right]

/-- The bits of a command word that its kind gives a meaning (R91). -/
def UsesBit (kind i : Nat) : Prop :=
  i < 3 ∨ (kind = 0 ∧ 8 ≤ i ∧ i < 24) ∨ (kind = 2 ∧ 16 ≤ i ∧ i < 32) ∨ (kind = 3 ∧ 8 ≤ i ∧ i < 16)

/-- A field is made of its bits. -/
theorem extractLsb'_eq_of_bits {n : Nat} {v w : BitVec n} {start len : Nat}
    (h : ∀ i, start ≤ i → i < start + len → v.getLsbD i = w.getLsbD i) :
    v.extractLsb' start len = w.extractLsb' start len := by
  apply BitVec.eq_of_getLsbD_eq
  intro i hi
  rw [BitVec.getLsbD_extractLsb', BitVec.getLsbD_extractLsb', h (start + i) (by omega) (by omega)]

/-- The low bits of a word, left as they were below other bits. -/
theorem getLsbD_append_low {m k n i : Nat} (x : BitVec m) (w : BitVec k) (h : i < n) :
    (x ++ w.extractLsb' 0 n).getLsbD i = w.getLsbD i := by
  simp [BitVec.getLsbD_append, h]

/-- The high bits of a word, left as they were above other bits. -/
theorem getLsbD_append_high {k start n a b i : Nat} (w : BitVec k) (y : BitVec a) (z : BitVec b) (hstart : start = a + b)
    (hlo : start ≤ i) (hhi : i < start + n) : (w.extractLsb' start n ++ y ++ z).getLsbD i = w.getLsbD i := by
  have hb : ¬i < b := by omega
  have ha : ¬i - b < a := by omega
  have hn : i - b - a < n := by omega
  have hi : start + (i - b - a) = i := by omega
  simp [BitVec.getLsbD_append, hb, ha, hn, hi]

/-- Only the bits that the kind uses decide what a word is read as. -/
theorem decodeCommand_eq_of_usedBits {v w : BitVec 32} (payload : List Byte)
    (h : ∀ i, UsesBit (w.extractLsb' 0 3).toNat i → v.getLsbD i = w.getLsbD i) :
    decodeCommand v payload = decodeCommand w payload := by
  have hkind : v.extractLsb' 0 3 = w.extractLsb' 0 3 :=
    extractLsb'_eq_of_bits fun i _ hi => h i (.inl (by omega))
  unfold decodeCommand
  rw [hkind]
  split
  next h0 =>
    have hop : v.extractLsb' 8 8 = w.extractLsb' 8 8 :=
      extractLsb'_eq_of_bits fun i hlo hi => h i (.inr (.inl ⟨h0, by omega, by omega⟩))
    have hdest : v.extractLsb' 16 8 = w.extractLsb' 16 8 :=
      extractLsb'_eq_of_bits fun i hlo hi => h i (.inr (.inl ⟨h0, by omega, by omega⟩))
    rw [hop, hdest]
  next => rfl
  next h2 =>
    rw [extractLsb'_eq_of_bits (start := 16) fun i hlo hi => h i (.inr (.inr (.inl ⟨h2, hlo, hi⟩)))]
  next h3 =>
    rw [extractLsb'_eq_of_bits (start := 8) fun i hlo hi => h i (.inr (.inr (.inr ⟨h3, hlo, hi⟩)))]
  all_goals rfl

/-! ### The row of a packet -/

/-- A whole packet is read by its opcode and its layout (R80, R82, R83). -/
theorem decodePacket_wireBytes (p : Params) (dir : Dir) (rsv : Byte) (seq : Word) (op dest : Byte) {body : List Byte}
    (h : body.length ≤ 65535) :
    decodePacket p dir (wireBytes rsv seq op dest body) = .ok (packetRow p dir rsv seq op dest body) := by
  have hlen : (BitVec.ofNat 16 body.length).toNat = body.length := by rw [BitVec.toNat_ofNat]; omega
  simp [wireBytes, decodePacket, hlen]

theorem packetRow_data (p : Params) (dir : Dir) (rsv : Byte) (seq : Word) (dest : Byte) (body : List Byte) :
    packetRow p dir rsv seq p.opData dest body = .pktData dir rsv seq dest body := if_pos rfl

theorem packetRow_ack {p : Params} (h : p.opAck ≠ p.opData) (dir : Dir) (seq rseq rlen : Word) :
    packetRow p dir Config.hdrRsv seq p.opAck p.ackDest (ackBody rseq rlen) = .pktAck dir seq rseq rlen := by
  simp [packetRow, h, ackBody]

/-- A control packet, where its layout is not that of an ACK packet (R84, R86). -/
theorem packetRow_ctrl {p : Params} {rsv op dest : Byte} {body : List Byte} (hop : op ≠ p.opData)
    (hack : ackShaped p rsv op dest body = false) (dir : Dir) (seq : Word) :
    packetRow p dir rsv seq op dest body = .pktCtrl dir rsv seq op dest body := by
  unfold packetRow
  rw [if_neg hop]
  by_cases hlayout : op = p.opAck ∧ rsv = Config.hdrRsv ∧ dest = p.ackDest
  · have hbody : body.length ≠ 4 := by simpa [ackShaped, hlayout] using hack
    rw [if_pos hlayout]
    split
    · exact absurd rfl hbody
    · rfl
  · rw [if_neg hlayout]

/-! ### The row of a payload byte -/

/-- A payload byte of a data packet comes to the row of the de-stuffer (R131). -/
theorem decodeOutcomeRow_data {p : Params} {v : RxView} (hf : v.fsm = .rd) (ho : v.hdrOp = p.opData) (b : Byte) :
    decodeOutcomeRow p v b = decodeDestuffRow p v.ds b := by
  simp [decodeOutcomeRow, decodeFrameRow, hf, ho]

/-! ### The statements about codes -/

/-- Settles O1, row by row: the receiver's rows by the state of their column, the packets by their layout, the commands by the
fields of their word. -/
theorem decodeInvertsEncode : Obligations.DecodeInvertsEncode := by
  unfold Obligations.DecodeInvertsEncode
  intro p i hp hwf
  obtain ⟨hack, -⟩ := hp
  have destuffRow (d : Ds) (b : Byte) :
      decode p (.outcome { resetView with fsm := .rd, hdrOp := p.opData, ds := d }) (.byte b) =
        .ok (decodeDestuffRow p d b) := congrArg Except.ok (decodeOutcomeRow_data rfl rfl b)
  have wire (dir : Dir) (rsv : Byte) (seq : Word) (op dest : Byte) {body : List Byte} (h : body.length ≤ 65535) :
      decode p (.wire dir) (.packet (wireBytes rsv seq op dest body)) = .ok (packetRow p dir rsv seq op dest body) :=
    decodePacket_wireBytes p dir rsv seq op dest h
  cases i with
  | rxiByte b => exact congrArg Except.ok (Machine.decodeItem_byte b)
  | rxiEof => exact congrArg Except.ok Machine.decodeItem_eof
  | rhMark => rfl
  | rhMark3 => rfl
  | rhOther b => exact congrArg Except.ok (if_neg (of_decide_eq_true hwf))
  | rpByte b => rfl
  | rpLast b => rfl
  | pktEmpty b =>
    obtain rfl : b = 0 := of_decide_eq_true hwf
    rfl
  | rdData b => exact congrArg Except.ok (if_pos rfl)
  | rdCtrl b =>
    have hop : p.opData + 1 ≠ p.opData := by bv_omega
    exact congrArg Except.ok (if_neg hop)
  | dsNMark => exact destuffRow .normal Config.marker
  | dsNOther b => exact (destuffRow .normal b).trans (congrArg Except.ok (if_neg (of_decide_eq_true hwf)))
  | ds1Mark => exact destuffRow .saw1 Config.marker
  | ds1Other b => exact (destuffRow .saw1 b).trans (congrArg Except.ok (if_neg (of_decide_eq_true hwf)))
  | ds2Sent b => exact (destuffRow .saw2 b).trans (congrArg Except.ok (if_pos (of_decide_eq_true hwf)))
  | ds2Other b => exact (destuffRow .saw2 b).trans (congrArg Except.ok (if_neg (of_decide_eq_true hwf)))
  | pktData dir rsv seq dest body =>
    simp only [Instr.wf, bodyFits, Bool.and_eq_true, decide_eq_true_eq] at hwf
    rw [Instr.source, encode, wire dir rsv seq _ dest hwf.1, packetRow_data]
  | pktCtrl dir rsv seq op dest body =>
    simp only [Instr.wf, bodyFits, Bool.and_eq_true, decide_eq_true_eq, Bool.not_eq_true'] at hwf
    obtain ⟨⟨⟨hbody, -⟩, hop⟩, hshape⟩ := hwf
    rw [Instr.source, encode, wire dir rsv seq op dest hbody, packetRow_ctrl hop hshape]
  | pktAck dir seq rseq rlen =>
    have hbody : (ackBody rseq rlen).length ≤ 65535 := by simp [ackBody]
    rw [Instr.source, encode, wire dir _ seq _ _ hbody, packetRow_ack hack]
  | txStep => rfl
  | cmdSend op dest payload => simp [Instr.source, encode, decode, decodeCommand]
  | cmdSetMaxOut v => simp [Instr.source, encode, decode, decodeCommand]
  | cmdClearAnom mask => simp [Instr.source, encode, decode, decodeCommand]
  | cmdStopRx => rfl
  | cmdPopData => rfl
  | cmdPopCtrl => rfl
  | cmdReadStatus => rfl
  | cmdReserved => rfl
  | linkErr => rfl
  | reset => rfl

/-- Settles O2: the words written out, each read by evaluation. -/
theorem tableWordsDecode : Obligations.TableWordsDecode := by
  unfold Obligations.TableWordsDecode
  decide

/-- Settles O3: each clause puts other values where the kind uses no bit, and leaves the others. -/
theorem unusedCommandBitsAreIgnored : Obligations.UnusedCommandBitsAreIgnored := by
  unfold Obligations.UnusedCommandBitsAreIgnored
  intro w payload junk high low top
  refine ⟨?low5, fun hk => ?send, fun hk => ?setMaxOut, fun hk => ?clearAnom, fun hk => ?noOperand⟩ <;>
    refine decodeCommand_eq_of_usedBits payload fun i hu => ?_ <;> unfold UsesBit at hu
  case low5 =>
    by_cases h3 : i < 3
    · exact getLsbD_append_low _ w h3
    · exact getLsbD_append_high w junk (w.extractLsb' 0 3) rfl (by omega) (by omega)
  case send => exact getLsbD_append_low top w (by omega)
  case setMaxOut =>
    by_cases h8 : i < 8
    · exact getLsbD_append_low _ w h8
    · exact getLsbD_append_high w low (w.extractLsb' 0 8) rfl (by omega) (by omega)
  case clearAnom => exact getLsbD_append_low high w (by omega)
  case noOperand => exact getLsbD_append_low (high ++ low) w (by omega)

end Sys2Proof
end

section
/-! SUPPORT and RESULTS. The frame of each agent's rows (spec/20_memory.md R65, R69): that every row goes on, what it leaves
unchanged, and which queue it takes from or appends to. -/

namespace Sys2Proof.Machine

/-! ### Every row goes on -/

/-- R280: no row faults and none is refused. -/
theorem exec_goesOn (i : Instr) (s : State) : ∃ t, exec i s = .next t := by
  cases i with
  | pktData dir => cases dir <;> exact ⟨_, rfl⟩
  | pktCtrl dir => cases dir <;> exact ⟨_, rfl⟩
  | pktAck dir => cases dir <;> exact ⟨_, rfl⟩
  | cmdPopData =>
    cases hd : s.dataOut with
    | nil => exact ⟨_, exec_cmdPopData_of_nil hd⟩
    | cons b bs => exact ⟨_, exec_cmdPopData_of_cons hd⟩
  | cmdPopCtrl =>
    cases hq : s.crq with
    | nil => exact ⟨_, exec_cmdPopCtrl_of_nil hq⟩
    | cons r rs => exact ⟨_, exec_cmdPopCtrl_of_cons hq⟩
  | _ => exact ⟨_, rfl⟩

/-! ### The anomaly bits -/

/-- Anomalies are added, none of them in the reserved bits (R37, R281). -/
def AnomGrows (s t : State) : Prop := ∃ m : Byte, m &&& 0xC0 = 0 ∧ t.anom = s.anom ||| m

theorem AnomGrows.of_eq {s t : State} (h : t.anom = s.anom) : AnomGrows s t :=
  ⟨0, rfl, by rw [h]; exact (BitVec.or_zero).symm⟩

theorem AnomGrows.of_flag {s t : State} (a : Anomaly) (h : t.anom = s.anom ||| a.mask) : AnomGrows s t :=
  ⟨a.mask, by cases a <;> rfl, h⟩

/-- The reserved bits are clear in two masks together where they are in each. -/
theorem or_and_reserved {m n : Byte} (hm : m &&& 0xC0 = 0) (hn : n &&& 0xC0 = 0) : (m ||| n) &&& 0xC0 = 0 := by
  rw [BitVec.and_comm, BitVec.and_or_distrib_left, BitVec.and_comm, hm, BitVec.and_comm, hn]
  rfl

theorem AnomGrows.trans {s t u : State} (hst : AnomGrows s t) (htu : AnomGrows t u) : AnomGrows s u := by
  obtain ⟨m, hm, ht⟩ := hst
  obtain ⟨n, hn, hu⟩ := htu
  exact ⟨m ||| n, or_and_reserved hm hn, by rw [hu, ht, BitVec.or_assoc]⟩

/-! ### The RX engine -/

/-- What the receiver, over any number of steps and arrivals, keeps: the fields of the other agents, a stopped reader, and all
that stands in the queues it appends to (R69, R138). -/
structure RxKeeps (s t : State) : Prop where
  params : t.params = s.params
  agenda : t.agenda = s.agenda
  txLive : t.txLive = s.txLive
  txSeq : t.txSeq = s.txSeq
  txq : t.txq = s.txq
  cur : t.cur = s.cur
  maxOut : t.maxOut = s.maxOut
  txOut : t.txOut = s.txOut
  cmdIn : t.cmdIn = s.cmdIn
  rspOut : t.rspOut = s.rspOut
  stopped : s.rxLive = false → t.rxLive = false
  anom : AnomGrows s t
  ackq : s.ackq <+: t.ackq
  dataOut : s.dataOut <+: t.dataOut
  crq : s.crq <+: t.crq

theorem RxKeeps.refl (s : State) : RxKeeps s s := by
  constructor
  case anom => exact .of_eq rfl
  all_goals simp

theorem RxKeeps.trans {s t u : State} (hst : RxKeeps s t) (htu : RxKeeps t u) : RxKeeps s u where
  params := htu.params.trans hst.params
  agenda := htu.agenda.trans hst.agenda
  txLive := htu.txLive.trans hst.txLive
  txSeq := htu.txSeq.trans hst.txSeq
  txq := htu.txq.trans hst.txq
  cur := htu.cur.trans hst.cur
  maxOut := htu.maxOut.trans hst.maxOut
  txOut := htu.txOut.trans hst.txOut
  cmdIn := htu.cmdIn.trans hst.cmdIn
  rspOut := htu.rspOut.trans hst.rspOut
  stopped := htu.stopped ∘ hst.stopped
  anom := hst.anom.trans htu.anom
  ackq := hst.ackq.trans htu.ackq
  dataOut := hst.dataOut.trans htu.dataOut
  crq := hst.crq.trans htu.crq

theorem rxKeeps_deliver (s : State) (items : List RxItem) : RxKeeps s (s.deliver items) := by
  constructor
  case anom => exact .of_eq rfl
  all_goals simp

theorem rxKeeps_commit_rxByte (s : State) (b : Byte) : RxKeeps s (commit s (rxByte s b)) := by
  obtain ⟨hparams, hrxLive, htxLive, htxSeq, htxq, hcur, hmaxOut, htxOut, hcmdIn, hrspOut, hagenda⟩ := rxByte_keeps s b
  constructor
  case anom =>
    rcases rxByte_anom s b with h | h | h
    · exact .of_eq h
    · exact .of_flag .opc h
    · exact .of_flag .outs h
  case stopped => exact fun h => hrxLive.trans h
  all_goals simp [*]

theorem rxKeeps_afterEof (s : State) : RxKeeps s (afterEof s) := by
  constructor
  case anom => exact .of_flag .eof rfl
  all_goals simp [afterEof]

theorem RxMoves.keeps {s t : State} (h : RxMoves s t) : RxKeeps s t := by
  rcases h with rfl | ⟨b, rest, -, -, rfl⟩ | ⟨-, -, rfl⟩
  · exact .refl t
  · exact rxKeeps_commit_rxByte s b
  · exact rxKeeps_afterEof s

/-- A step of the RX engine takes at most the head of `rx_in`. -/
theorem RxMoves.rxIn_suffix {s t : State} (h : RxMoves s t) : t.rxIn <:+ s.rxIn := by
  rcases h with rfl | ⟨b, rest, -, -, rfl⟩ | ⟨-, -, rfl⟩
  · exact List.suffix_rfl
  · exact List.tail_suffix s.rxIn
  · exact List.tail_suffix s.rxIn

/-- With the reader stopped the RX engine has no step (R138). -/
theorem RxMoves.eq_of_stopped {s t : State} (h : RxMoves s t) (hl : s.rxLive = false) : t = s := by
  rcases h with rfl | ⟨b, rest, ⟨hlive, -⟩, -, rfl⟩ | ⟨hlive, -, rfl⟩
  · rfl
  · simp [hl] at hlive
  · simp [hl] at hlive

theorem rxKeeps_rxLine (s : State) (bytes : List Byte) : RxKeeps s (rxLine s bytes) :=
  rxLine_induct (P := RxKeeps s) (fun t items h => h.trans (rxKeeps_deliver t items)) (fun _ _ h hm => h.trans hm.keeps)
    bytes (.refl s)

/-! ### The TX engine -/

/-- What a step of the TX engine can change, and that it takes from the fronts of the queues and appends to the wire (R69). -/
theorem TxMoves.frame {s t : State} (h : TxMoves s t) :
    t = { s with ackq := t.ackq, cur := t.cur, txq := t.txq, txOut := t.txOut, txSeq := t.txSeq } ∧
    t.ackq <:+ s.ackq ∧ t.txq <:+ s.txq ∧ s.txOut <+: t.txOut := by
  rcases h with rfl | ⟨-, e, hp, rfl⟩
  · exact ⟨rfl, List.suffix_rfl, List.suffix_rfl, List.prefix_rfl⟩
  · rcases txPick_cases hp with ⟨r, rs, hq, rfl⟩ | ⟨hq, c, hc, rfl⟩ | ⟨hq, hc, q, qs, htxq, rfl⟩
    · exact ⟨rfl, hq ▸ List.suffix_cons r rs, List.suffix_rfl, List.prefix_append _ _⟩
    · exact ⟨rfl, List.suffix_rfl, List.suffix_rfl, List.prefix_append _ _⟩
    · exact ⟨rfl, List.suffix_rfl, htxq ▸ List.suffix_cons q qs, List.prefix_append _ _⟩

/-! ### The host -/

/-- R240: a SEND with the writer live and room. -/
theorem exec_cmdSend_queued {s : State} (op dest : Byte) (payload : List Byte) (hl : s.txLive = true)
    (hq : s.txq.length < s.params.txqDepth) :
    exec (.cmdSend op dest payload) s =
      .next (State.answer { s with txq := s.txq ++ [{ op := op, dest := dest, payload := payload }] } .ok .none) := by
  have hroom : fits 1 (room s.params.txqDepth s.txq) = true := by rw [fits_iff, room_eq]; omega
  rw [exec, execCmdSend, if_pos hl, if_pos hroom]

/-- R240: a SEND with `txq` full is held. -/
theorem exec_cmdSend_held {s : State} (op dest : Byte) (payload : List Byte) (hl : s.txLive = true)
    (hq : s.params.txqDepth ≤ s.txq.length) : exec (.cmdSend op dest payload) s = .next s := by
  have hroom : ¬fits 1 (room s.params.txqDepth s.txq) = true := by rw [fits_iff, room_eq]; omega
  rw [exec, execCmdSend, if_pos hl, if_neg hroom]

/-- R241: a SEND once the writer path has failed; NOTOPEN is bit 2 (R281). -/
theorem exec_cmdSend_notOpen {s : State} (op dest : Byte) (payload : List Byte) (hl : s.txLive = false) :
    exec (.cmdSend op dest payload) s = .next (State.answer { s with anom := s.anom ||| 0x04 } .notOpen .none) := by
  rw [exec, execCmdSend, if_neg (by simp [hl])]
  rfl

/-- What a host command can change, and which command changes which field (R69, R240 to R248). -/
structure HostFrame (i : Instr) (s t : State) : Prop where
  only : t = { s with
    rxLive := t.rxLive, txq := t.txq, maxOut := t.maxOut, anom := t.anom, dataOut := t.dataOut, crq := t.crq
    cmdIn := t.cmdIn, rspOut := t.rspOut }
  txq : s.txq <+: t.txq
  dataOut : t.dataOut <:+ s.dataOut
  crq : t.crq <:+ s.crq
  stopped : s.rxLive = false → t.rxLive = false
  dataOut_of_ne : i ≠ .cmdPopData → t.dataOut = s.dataOut
  crq_of_ne : i ≠ .cmdPopCtrl → t.crq = s.crq
  txq_of_ne : (∀ op dest payload, i ≠ .cmdSend op dest payload) → t.txq = s.txq
  rxLive_of_ne : i ≠ .cmdStopRx → t.rxLive = s.rxLive
  maxOut_of_ne : (∀ v, i ≠ .cmdSetMaxOut v) → t.maxOut = s.maxOut
  anom : AnomGrows s t ∨ ∃ mask, i = .cmdClearAnom mask ∧ t.anom = s.anom &&& ~~~mask

theorem exec_hostFrame {i : Instr} {s t : State} (hi : ofHost i = true) (h : exec i s = .next t) : HostFrame i s t := by
  cases i with
  | cmdSend op dest payload =>
    by_cases hl : s.txLive = true
    · by_cases hq : s.txq.length < s.params.txqDepth
      · rw [exec_cmdSend_queued op dest payload hl hq] at h
        obtain rfl := Host.Outcome.next.inj h
        constructor <;> simp [State.answer, AnomGrows.of_eq]
      · rw [exec_cmdSend_held op dest payload hl (by omega)] at h
        obtain rfl := Host.Outcome.next.inj h
        constructor <;> simp [AnomGrows.of_eq]
    · rw [exec_cmdSend_notOpen op dest payload (by simpa using hl)] at h
      obtain rfl := Host.Outcome.next.inj h
      constructor
      case anom => exact .inl (.of_flag .notOpen rfl)
      all_goals simp [State.answer]
  | cmdStopRx =>
    obtain rfl := Host.Outcome.next.inj ((exec_cmdStopRx s).symm.trans h)
    constructor <;> simp [State.answer, AnomGrows.of_eq]
  | cmdSetMaxOut v =>
    obtain rfl := Host.Outcome.next.inj ((exec_cmdSetMaxOut s v).symm.trans h)
    constructor <;> simp [State.answer, AnomGrows.of_eq]
  | cmdClearAnom mask =>
    obtain rfl := Host.Outcome.next.inj ((exec_cmdClearAnom s mask).symm.trans h)
    constructor
    case anom => exact .inr ⟨mask, rfl, rfl⟩
    all_goals simp [State.answer]
  | cmdPopData =>
    cases hd : s.dataOut with
    | nil =>
      obtain rfl := Host.Outcome.next.inj ((exec_cmdPopData_of_nil hd).symm.trans h)
      constructor <;> simp [State.answer, AnomGrows.of_eq]
    | cons b bs =>
      obtain rfl := Host.Outcome.next.inj ((exec_cmdPopData_of_cons hd).symm.trans h)
      constructor <;> simp [State.answer, AnomGrows.of_eq, hd]
  | cmdPopCtrl =>
    cases hq : s.crq with
    | nil =>
      obtain rfl := Host.Outcome.next.inj ((exec_cmdPopCtrl_of_nil hq).symm.trans h)
      constructor <;> simp [State.answer, AnomGrows.of_eq]
    | cons r rs =>
      obtain rfl := Host.Outcome.next.inj ((exec_cmdPopCtrl_of_cons hq).symm.trans h)
      constructor <;> simp [State.answer, AnomGrows.of_eq, hq]
  | cmdReadStatus =>
    obtain rfl := Host.Outcome.next.inj ((exec_cmdReadStatus s).symm.trans h)
    constructor <;> simp [State.answer, AnomGrows.of_eq]
  | cmdReserved =>
    obtain rfl := Host.Outcome.next.inj ((exec_cmdReserved s).symm.trans h)
    constructor
    case anom => exact .inl (.of_flag .badCmd rfl)
    all_goals simp [State.answer]
  | _ => exact absurd hi (by simp [ofHost])

/-! ### All rows -/

/-- The state after LINK_ERR (R283). -/
def afterLinkErr (s : State) : State :=
  { s with rxLive := false, txLive := false, txq := [], cur := none, ackq := [], anom := s.anom ||| 0x20 }

/-- The state after RESET (R310). -/
def afterReset (s : State) : State :=
  { State.reset with
    params := s.params, txSeq := s.params.seqInit
    txOut := s.txOut, cmdIn := s.cmdIn, rspOut := s.rspOut, agenda := s.agenda }

/-- Everything a row can come to, by the agent whose row it is. -/
theorem exec_cases {i : Instr} {s t : State} (h : exec i s = .next t) :
    (ofRxEngine i = true ∧ RxMoves s t) ∨ (ofTxEngine i = true ∧ TxMoves s t) ∨ (ofHost i = true ∧ HostFrame i s t) ∨
    (ofWire i = true ∧ RxKeeps s t) ∨ (i = .linkErr ∧ t = afterLinkErr s) ∨ (i = .reset ∧ t = afterReset s) := by
  rcases row_cases i with hi | hi | hi | hi | rfl | rfl
  · exact .inl ⟨hi, exec_rx_moves hi h⟩
  · exact .inr (.inl ⟨hi, exec_tx_moves hi h⟩)
  · exact .inr (.inr (.inl ⟨hi, exec_hostFrame hi h⟩))
  · obtain ⟨bytes, rfl⟩ := exec_wire hi h
    exact .inr (.inr (.inr (.inl ⟨hi, rxKeeps_rxLine s bytes⟩)))
  · exact .inr (.inr (.inr (.inr (.inl ⟨rfl, (Host.Outcome.next.inj h).symm⟩))))
  · exact .inr (.inr (.inr (.inr (.inr ⟨rfl, (Host.Outcome.next.inj h).symm⟩))))

theorem exec_keeps_params_agenda {i : Instr} {s t : State} (h : exec i s = .next t) :
    t.params = s.params ∧ t.agenda = s.agenda := by
  rcases exec_cases h with ⟨-, hm⟩ | ⟨-, hm⟩ | ⟨-, hf⟩ | ⟨-, hk⟩ | ⟨-, rfl⟩ | ⟨-, rfl⟩
  · exact ⟨hm.keeps.params, hm.keeps.agenda⟩
  · obtain ⟨ht, -⟩ := hm.frame
    rw [ht]
    exact ⟨rfl, rfl⟩
  · rw [hf.only]
    exact ⟨rfl, rfl⟩
  · exact ⟨hk.params, hk.agenda⟩
  · exact ⟨rfl, rfl⟩
  · exact ⟨rfl, rfl⟩

/-! ### A step of the machine -/

theorem step_of_land {s t : State} {turn : Turn} {ts : List Turn} (ha : s.agenda = turn :: ts)
    (h : fetchTurn turn { s with agenda := ts } = .land t) : step s = .next t := by
  have hfetch : fetch s = .land t := by rw [← h, fetch, ha]
  rw [step, hfetch]

theorem step_of_run {s t : State} {turn : Turn} {ts : List Turn} {i : Instr} (ha : s.agenda = turn :: ts)
    (h : fetchTurn turn { s with agenda := ts } = .run i t) : step s = exec i t := by
  have hfetch : fetch s = .run i t := by rw [← h, fetch, ha]
  rw [step, hfetch]

/-- A turn that lands changes `rx_in`, `cmd_in` or nothing, or is a received line consumed as it is; every other turn runs a
row. -/
theorem fetchTurn_cases (turn : Turn) (s : State) :
    (∃ i, fetchTurn turn s = .run i s) ∨ fetchTurn turn s = .land s ∨
    (∃ items, fetchTurn turn s = .land (s.deliver items)) ∨ (∃ c, fetchTurn turn s = .land (s.issue c)) ∨
    (∃ bytes, fetchTurn turn s = .land (rxLine s bytes)) := by
  cases turn with
  | deliver items => exact .inr (.inr (.inl ⟨items, rfl⟩))
  | issue c => exact .inr (.inr (.inr (.inl ⟨c, rfl⟩)))
  | rxEngine =>
    cases hr : s.rxIn with
    | nil => exact .inr (.inl (by rw [fetchTurn, hr]))
    | cons it rest => exact .inl ⟨_, by rw [fetchTurn, hr]⟩
  | txEngine => exact .inl ⟨_, rfl⟩
  | host =>
    cases hc : s.cmdIn with
    | nil => exact .inr (.inl (by rw [fetchTurn, hc]))
    | cons c rest => exact .inl ⟨_, by rw [fetchTurn, hc]⟩
  | linkErr => exact .inl ⟨_, rfl⟩
  | reset => exact .inl ⟨_, rfl⟩
  | rxLine bytes =>
    cases hd : decodePacket s.params .received bytes with
    | ok i => exact .inl ⟨i, by rw [fetchTurn, fetchLine, hd]⟩
    | error e => exact .inr (.inr (.inr (.inr ⟨bytes, by rw [fetchTurn, fetchLine, hd]⟩)))

/-- Everything a step can do: nothing with an empty agenda, else one turn leaves the agenda, and a row runs or an input
lands. -/
theorem step_cases (s : State) :
    (s.agenda = [] ∧ step s = .next s) ∨
    (∃ i, step s = exec i { s with agenda := s.agenda.tail }) ∨ step s = .next { s with agenda := s.agenda.tail } ∨
    (∃ items, step s = .next (State.deliver { s with agenda := s.agenda.tail } items)) ∨
    (∃ c, step s = .next (State.issue { s with agenda := s.agenda.tail } c)) ∨
    (∃ bytes, step s = .next (rxLine { s with agenda := s.agenda.tail } bytes)) := by
  cases ha : s.agenda with
  | nil => exact .inl ⟨rfl, by rw [step, fetch, ha]⟩
  | cons turn ts =>
    right
    rcases fetchTurn_cases turn { s with agenda := ts } with ⟨i, h⟩ | h | ⟨items, h⟩ | ⟨c, h⟩ | ⟨bytes, h⟩
    · exact .inl ⟨i, step_of_run ha h⟩
    · exact .inr (.inl (step_of_land ha h))
    · exact .inr (.inr (.inl ⟨items, step_of_land ha h⟩))
    · exact .inr (.inr (.inr (.inl ⟨c, step_of_land ha h⟩)))
    · exact .inr (.inr (.inr (.inr ⟨bytes, step_of_land ha h⟩)))

/-! ### The frame statements -/

/-- Settles O54: a step lands an input or runs a row, and every row goes on. -/
theorem everyStepGoesOn : Obligations.EveryStepGoesOn := by
  unfold Obligations.EveryStepGoesOn
  refine ⟨fun s => ?_, exec_goesOn⟩
  rcases step_cases s with ⟨-, h⟩ | ⟨i, h⟩ | h | ⟨items, h⟩ | ⟨c, h⟩ | ⟨bytes, h⟩
  · exact ⟨_, h⟩
  · rw [h]
    exact exec_goesOn i _
  all_goals exact ⟨_, h⟩

/-- Settles O55: no row writes the two fields, nor does an input that lands. -/
theorem parametersAndAgendaAreKept : Obligations.ParametersAndAgendaAreKept := by
  unfold Obligations.ParametersAndAgendaAreKept
  refine ⟨fun i s t => exec_keeps_params_agenda, fun s t ht => ?_⟩
  rcases step_cases s with ⟨ha, h⟩ | ⟨i, h⟩ | h | ⟨items, h⟩ | ⟨c, h⟩ | ⟨bytes, h⟩ <;> rw [h] at ht
  · obtain rfl := Host.Outcome.next.inj ht
    exact ⟨rfl, by rw [ha]; rfl⟩
  · exact exec_keeps_params_agenda ht
  · obtain rfl := Host.Outcome.next.inj ht
    exact ⟨rfl, rfl⟩
  · obtain rfl := Host.Outcome.next.inj ht
    exact ⟨rfl, rfl⟩
  · obtain rfl := Host.Outcome.next.inj ht
    exact ⟨rfl, rfl⟩
  · obtain rfl := Host.Outcome.next.inj ht
    have hk := rxKeeps_rxLine { s with agenda := s.agenda.tail } bytes
    exact ⟨hk.params, hk.agenda⟩

/-- Settles O56: the reader flow stays stopped under every row but RESET, and the writer flow is written by the two events
only. -/
theorem onlyResetRevivesAFlow : Obligations.OnlyResetRevivesAFlow := by
  unfold Obligations.OnlyResetRevivesAFlow
  intro i s t h
  have keeps (hrx : s.rxLive = false → t.rxLive = false) (htx : t.txLive = s.txLive) :
      (s.rxLive = false → t.rxLive = true → i = .reset) ∧ (s.txLive = false → t.txLive = true → i = .reset) ∧
      (s.txLive = true → t.txLive = false → i = .linkErr) := by
    refine ⟨fun h0 h1 => ?_, fun h0 h1 => ?_, fun h1 h0 => ?_⟩
    · simp [hrx h0] at h1
    · simp [htx, h0] at h1
    · simp [htx, h1] at h0
  rcases exec_cases h with ⟨-, hm⟩ | ⟨-, hm⟩ | ⟨-, hf⟩ | ⟨-, hk⟩ | ⟨rfl, rfl⟩ | ⟨rfl, rfl⟩
  · exact keeps hm.keeps.stopped hm.keeps.txLive
  · obtain ⟨ht, -⟩ := hm.frame
    exact keeps (fun h0 => by rw [ht, h0]) (by rw [ht])
  · exact keeps hf.stopped (by rw [hf.only])
  · exact keeps hk.stopped hk.txLive
  · exact ⟨fun _ h1 => absurd h1 (by simp [afterLinkErr]), fun _ h1 => absurd h1 (by simp [afterLinkErr]), fun _ _ => rfl⟩
  · exact ⟨fun _ _ => rfl, fun _ _ => rfl, fun _ h0 => absurd h0 (by simp [afterReset, State.reset])⟩

/-- Of every row but CLEAR_ANOM and RESET the anomalies grow. -/
theorem exec_anom {i : Instr} {s t : State} (h : exec i s = .next t) :
    AnomGrows s t ∨ (∃ mask, i = .cmdClearAnom mask ∧ t.anom = s.anom &&& ~~~mask) ∨ (i = .reset ∧ t.anom = 0) := by
  rcases exec_cases h with ⟨-, hm⟩ | ⟨-, hm⟩ | ⟨-, hf⟩ | ⟨-, hk⟩ | ⟨-, rfl⟩ | ⟨rfl, rfl⟩
  · exact .inl hm.keeps.anom
  · obtain ⟨ht, -⟩ := hm.frame
    exact .inl (.of_eq (by rw [ht]))
  · exact hf.anom.elim .inl fun hc => .inr (.inl hc)
  · exact .inl hk.anom
  · exact .inl (.of_flag .link rfl)
  · exact .inr (.inr ⟨rfl, rfl⟩)

/-- A mask without reserved bits has neither of bits 7 and 6. -/
theorem getElem_of_and_reserved {m : Byte} (hm : m &&& 0xC0 = 0) {k : Fin 8} (hk : 6 ≤ k.val) : m[k] = false := by
  have hset : (0xC0 : Byte)[k] = true := by
    revert k
    decide
  have hbit : (m[k] && (0xC0 : Byte)[k]) = false := by
    have hand : (m &&& 0xC0)[k] = (m[k] && (0xC0 : Byte)[k]) := BitVec.getElem_and ..
    rw [← hand, hm]
    exact BitVec.getElem_zero ..
  rwa [hset, Bool.and_true] at hbit

/-- Settles O57: bits are added without the reserved ones, cleared by the mask, or all cleared by RESET. -/
theorem anomalyBitsAreSticky : Obligations.AnomalyBitsAreSticky := by
  unfold Obligations.AnomalyBitsAreSticky
  intro i s t k h
  rcases exec_anom h with ⟨m, hm, ht⟩ | ⟨mask, rfl, ht⟩ | ⟨rfl, ht⟩
  · have hbit : t.anom[k] = (s.anom[k] || m[k]) := by rw [ht]; exact BitVec.getElem_or ..
    rw [hbit]
    exact ⟨fun h1 h0 => by simp [h1] at h0, fun hk h0 => by rw [h0, getElem_of_and_reserved hm hk]; rfl⟩
  · rw [ht, getElem_and_not_mask]
    exact ⟨fun h1 h0 => .inr ⟨mask, rfl, by simpa [h1] using h0⟩, fun _ h0 => by rw [h0]; rfl⟩
  · rw [ht]
    exact ⟨fun _ _ => .inl rfl, fun _ _ => by simp⟩

/-- Settles O58: the TX engine appends to the log, and no other row touches it. -/
theorem wireLogIsAppendOnly : Obligations.WireLogIsAppendOnly := by
  unfold Obligations.WireLogIsAppendOnly
  intro i s t h
  have same (heq : t.txOut = s.txOut) : (∃ xs, t.txOut = s.txOut ++ xs) ∧ (ofTxEngine i = false → t.txOut = s.txOut) :=
    ⟨⟨[], by rw [heq, List.append_nil]⟩, fun _ => heq⟩
  rcases exec_cases h with ⟨-, hm⟩ | ⟨hi, hm⟩ | ⟨-, hf⟩ | ⟨-, hk⟩ | ⟨-, rfl⟩ | ⟨-, rfl⟩
  · exact same hm.keeps.txOut
  · obtain ⟨-, -, -, xs, hxs⟩ := hm.frame
    exact ⟨⟨xs, hxs.symm⟩, fun hno => absurd hno (by simp [hi])⟩
  · exact same (by rw [hf.only])
  · exact same hk.txOut
  · exact same rfl
  · exact same rfl

/-- Settles O59: the frames of the three agents, each with its queues. -/
theorem agentsKeepToTheirQueues : Obligations.AgentsKeepToTheirQueues := by
  unfold Obligations.AgentsKeepToTheirQueues
  have ends {α : Type} {xs ys : List α} (h : xs <+: ys) : ∃ zs, ys = xs ++ zs := h.imp fun _ => Eq.symm
  have front {α : Type} {xs ys : List α} (h : ys <:+ xs) : ∃ zs, xs = zs ++ ys := h.imp fun _ => Eq.symm
  intro i s t h
  refine ⟨fun hi => ?rx, fun hi => ?tx, fun hi => ?host⟩
  case rx =>
    have hm := exec_rx_moves hi h
    have hk := hm.keeps
    exact ⟨hk.txSeq, hk.txq, hk.cur, hk.txOut, hk.txLive, hk.maxOut, hk.cmdIn, hk.rspOut, ends hk.ackq, ends hk.dataOut,
      ends hk.crq, front hm.rxIn_suffix⟩
  case tx =>
    obtain ⟨ht, hackq, htxq, -⟩ := (exec_tx_moves hi h).frame
    exact ⟨ht, front hackq, front htxq⟩
  case host =>
    have hf := exec_hostFrame hi h
    exact ⟨hf.only, ends hf.txq, front hf.dataOut, front hf.crq, hf.dataOut_of_ne, hf.crq_of_ne, hf.txq_of_ne,
      hf.rxLive_of_ne, hf.maxOut_of_ne⟩

/-- Settles O60: a move of an engine is no change, or the engine's step on what stands at its port. -/
theorem rowsTakeTheirEnginesStep : Obligations.RowsTakeTheirEnginesStep := by
  unfold Obligations.RowsTakeTheirEnginesStep
  intro i s
  obtain ⟨t, h⟩ := exec_goesOn i s
  rw [h]
  refine ⟨fun hi => ?rx, fun hi => ?tx⟩
  case rx =>
    rcases exec_rx_moves hi h with rfl | ⟨b, rest, hr, hf, rfl⟩ | ⟨hl, ⟨rest, hin⟩, rfl⟩
    · exact .inl rfl
    · exact .inr ⟨.byte b, rest, hr.2, by rw [decodeItem_byte, exec, execRxiByte, consume_enabled hr hf]⟩
    · exact .inr ⟨.eof, rest, hin, by rw [decodeItem_eof, exec, execRxiEof, rxEof_enabled hl hin, afterEof, hin]; rfl⟩
  case tx =>
    rcases exec_tx_moves hi h with rfl | ⟨hl, e, hp, rfl⟩
    · exact .inl rfl
    · exact .inr (by rw [exec, execTxStep, txTurn_enabled hl hp])

/-- Settles O34: the writer does not run, or the engine has nothing to pick. -/
theorem deadOrIdleWriterIsHeld : Obligations.DeadOrIdleWriterIsHeld := by
  unfold Obligations.DeadOrIdleWriterIsHeld
  intro s i hno hi
  obtain ⟨t, h⟩ := exec_goesOn i s
  rw [h]
  rcases exec_tx_moves hi h with rfl | ⟨hl, e, hp, -⟩
  · rfl
  · rcases hno with hdead | hidle
    · simp [hdead] at hl
    · simp [(txPick_none_iff s).mpr hidle] at hp

end Sys2Proof.Machine
end

section
/-! SUPPORT and RESULTS. The RX engine's step on a byte as its row (spec/40_decoder.md R120), when it is held (00_scope.md R11),
and what a step of it does to the de-stuffer and to the ACK requests. -/

namespace Sys2Proof.Machine

/-! ### The row that the state selects -/

/-- A payload byte of a data packet is the step of the de-stuffer's row (R131, R160). -/
theorem exec_rxiByte_eq_destuffRow {s : State} (hf : s.fsm = .rd) (ho : s.hdrOp = s.params.opData) (b : Byte) :
    exec (.rxiByte b) s = exec (decodeDestuffRow s.params s.ds b) s := by
  have hrx (d : Ds) (hd : s.ds = d) : rxByte s b = payloadByte
      { s with ds := (destuff s.params.litSentinel d b).1 } (destuff s.params.litSentinel d b).2 := by
    rw [rxByte_rd_data hf ho, rxData, hd]
  have hsel (d : Ds) (hd : s.ds = d) : s.destuffing d = true := by simp [State.destuffing, State.inData, hf, ho, hd]
  cases hd : s.ds with
  | normal =>
    by_cases hb : b = Config.marker
    · subst hb
      exact exec_rxiByte_eq_row (hsel .normal hd) (hrx .normal hd)
    · rw [decodeDestuffRow, if_neg hb]
      exact exec_rxiByte_eq_row (by simp [hsel .normal hd, hb]) (by rw [hrx .normal hd, destuff_normal_other _ hb])
  | saw1 =>
    by_cases hb : b = Config.marker
    · subst hb
      exact exec_rxiByte_eq_row (hsel .saw1 hd) (hrx .saw1 hd)
    · rw [decodeDestuffRow, if_neg hb]
      exact exec_rxiByte_eq_row (by simp [hsel .saw1 hd, hb]) (by rw [hrx .saw1 hd, destuff_saw1_other _ hb])
  | saw2 =>
    by_cases hb : b = s.params.litSentinel
    · rw [decodeDestuffRow, if_pos hb]
      exact exec_rxiByte_eq_row (by simp [hsel .saw2 hd, hb]) (by rw [hrx .saw2 hd, hb, destuff_saw2_sentinel])
    · rw [decodeDestuffRow, if_neg hb]
      exact exec_rxiByte_eq_row (by simp [hsel .saw2 hd, hb]) (by rw [hrx .saw2 hd, destuff_saw2_other hb])

/-- A byte is the step of its row in R120's table, cell by cell. -/
theorem exec_rxiByte_eq_frameRow (s : State) (b : Byte) :
    exec (.rxiByte b) s = exec (decodeFrameRow s.params s.view b) s := by
  unfold decodeFrameRow State.view
  cases hf : s.fsm with
  | rh =>
    by_cases hb : b = Config.marker
    · subst hb
      by_cases hm : s.matchCount.val < 2
      · simp only [if_true, if_pos hm]
        exact exec_rxiByte_eq_row (by simp [hf, hm]) (rxByte_rh_mark hf hm)
      · have h2 : s.matchCount = 2 := by omega
        simp only [if_true, if_neg hm]
        exact exec_rxiByte_eq_row (by simp [hf, h2]) (rxByte_rh_mark3 hf h2)
    · simp only [if_neg hb]
      exact exec_rxiByte_eq_row (by simp [hf, hb]) (rxByte_rh_other hf hb)
  | rp =>
    by_cases hp : s.pcount.val < 6
    · simp only [if_pos hp]
      exact exec_rxiByte_eq_row (by simp [hf, hp]) (rxByte_rp_byte hf hp)
    · have h6 : s.pcount = 6 := by omega
      simp only [if_neg hp]
      exact exec_rxiByte_eq_row (by simp [hf, h6]) (rxByte_rp_last hf h6)
  | rd =>
    by_cases ho : s.hdrOp = s.params.opData
    · simp only [if_pos ho]
      exact exec_rxiByte_eq_row (by simp [hf, State.inData, ho]) (rxByte_rd_data hf ho)
    · simp only [if_neg ho]
      exact exec_rxiByte_eq_row (by simp [hf, State.inData, ho]) (rxByte_rd_ctrl hf ho)

/-- The seventh parameter byte comes to PKT_EMPTY with length 0 (R127). -/
theorem decodeOutcomeRow_last {p : Params} {v : RxView} (hf : v.fsm = .rp) (hp : v.pcount = 6) (b : Byte) :
    decodeOutcomeRow p v b = if be16 v.lenHigh b = 0 then .pktEmpty b else .rpLast b := by
  simp [decodeOutcomeRow, decodeFrameRow, hf, hp]

/-- Every row but RD_DATA and RP_LAST comes to itself. -/
theorem decodeOutcomeRow_self {p : Params} {v : RxView} (hdata : ¬(v.fsm = .rd ∧ v.hdrOp = p.opData))
    (hlast : ¬(v.fsm = .rp ∧ v.pcount = 6)) (b : Byte) : decodeOutcomeRow p v b = decodeFrameRow p v b := by
  unfold decodeOutcomeRow decodeFrameRow
  cases hf : v.fsm with
  | rh => by_cases hb : b = Config.marker <;> by_cases hm : v.matchCount.val < 2 <;> simp [hb, hm]
  | rp =>
    have hp : v.pcount.val < 6 := by
      have hne : v.pcount ≠ 6 := fun h6 => hlast ⟨hf, h6⟩
      omega
    simp [hp]
  | rd =>
    have ho : v.hdrOp ≠ p.opData := fun heq => hdata ⟨hf, heq⟩
    simp [ho]

/-- Settles O16: R120's table, and then the two rows that come to another one. -/
theorem byteStepIsItsRow : Obligations.ByteStepIsItsRow := by
  unfold Obligations.ByteStepIsItsRow
  refine fun s b => ⟨exec_rxiByte_eq_frameRow s b, ?_⟩
  by_cases hdata : s.fsm = .rd ∧ s.hdrOp = s.params.opData
  · obtain ⟨hf, ho⟩ := hdata
    rw [decodeOutcomeRow_data (v := s.view) hf ho]
    exact exec_rxiByte_eq_destuffRow hf ho b
  · by_cases hlast : s.fsm = .rp ∧ s.pcount = 6
    · obtain ⟨hf, hp⟩ := hlast
      rw [decodeOutcomeRow_last (v := s.view) hf hp]
      split
      next h0 =>
        have hempty : be16 s.pbuf[5] b = 0 := h0
        exact exec_rxiByte_eq_row (by simp [hf, hp, hempty]) (by rw [rxByte_rp_last hf hp, rxLast, if_pos hempty])
      next => exact exec_rxiByte_eq_row (by simp [hf, hp]) (rxByte_rp_last hf hp)
    · rw [decodeOutcomeRow_self (v := s.view) hdata hlast]
      exact exec_rxiByte_eq_frameRow s b

/-! ### Held steps -/

/-- A byte whose outputs do not fit is held (R120). -/
theorem exec_rxiByte_held {s : State} {b : Byte} (h : ¬(rxByte s b).fitsIn s = true) : exec (.rxiByte b) s = .next s := by
  rw [exec, execRxiByte, consume_held (by simpa using h)]

theorem exec_rxiByte_held_of_outs {s : State} {b : Byte} (hne : (rxByte s b).outs ≠ [])
    (hfull : s.params.dataqDepth < s.dataOut.length + (rxByte s b).outs.length) : exec (.rxiByte b) s = .next s :=
  exec_rxiByte_held fun hf => by
    have hroom := ((fitsIn_iff _ s).mp hf).1 hne
    omega

theorem exec_rxiByte_held_of_ack {s : State} {b : Byte} (hne : (rxByte s b).ack ≠ none)
    (hfull : s.params.ackqDepth ≤ s.ackq.length) : exec (.rxiByte b) s = .next s :=
  exec_rxiByte_held fun hf => by
    have hroom := ((fitsIn_iff _ s).mp hf).2.1 hne
    omega

theorem exec_rxiByte_held_of_ctrl {s : State} {b : Byte} (hne : (rxByte s b).ctrl ≠ none)
    (hfull : s.params.crqDepth ≤ s.crq.length) : exec (.rxiByte b) s = .next s :=
  exec_rxiByte_held fun hf => by
    have hroom := ((fitsIn_iff _ s).mp hf).2.2 hne
    omega

/-! ### What a step pushes -/

theorem rxByte_outs_data {s : State} (hf : s.fsm = .rd) (ho : s.hdrOp = s.params.opData) (b : Byte) :
    (rxByte s b).outs = (destuff s.params.litSentinel s.ds b).2 := by
  rw [rxByte_rd_data hf ho, rxData, payloadByte_outs]

theorem rxByte_outs_last {s : State} (hf : s.fsm = .rp) (hp : s.pcount = 6) (b : Byte) :
    (rxByte s b).outs = withheld s.ds := by
  rw [rxByte_rp_last hf hp, rxLast]
  split <;> rfl

/-- The last byte of a packet makes the request of R220. -/
theorem rxByte_ack_last {s : State} (hf : s.fsm = .rd) (hlast : s.dcount + 1 = s.hdrLen) (b : Byte) :
    (rxByte s b).ack = ackRequest s := by
  by_cases ho : s.hdrOp = s.params.opData
  · rw [rxByte_rd_data hf ho, rxData, payloadByte_ack, if_pos hlast]
    rfl
  · rw [rxByte_rd_ctrl hf ho, rxCtrl, payloadByte_ack, if_pos hlast]
    rfl

/-- The last byte of a control packet posts its record (R135). -/
theorem rxByte_ctrl_last {s : State} (hf : s.fsm = .rd) (ho : s.hdrOp ≠ s.params.opData) (hlast : s.dcount + 1 = s.hdrLen)
    (b : Byte) : (rxByte s b).ctrl = some
      { seq := s.hdrSeq, op := s.hdrOp, dest := s.hdrDest, payload := s.acc ++ [b] } := by
  rw [rxByte_rd_ctrl hf ho, rxCtrl, payloadByte_ctrl, if_pos hlast, ctrlRecord_ctrl (by exact ho)]

@[simp] theorem payloadByte_ds (s : State) (outs : List Byte) : (payloadByte s outs).st.ds = s.ds := by
  by_cases h : s.dcount + 1 = s.hdrLen
  · rw [payloadByte_last h, complete]
    simp
  · rw [payloadByte_more h]

/-- R167: no byte makes the de-stuffer emit more than two. -/
theorem destuff_outs_length (sentinel : Byte) (d : Ds) (b : Byte) : (destuff sentinel d b).2.length ≤ 2 := by
  cases d <;> simp only [destuff] <;> split <;> simp

/-- Only a marker takes the de-stuffer out of Normal, or keeps it out (R161 to R166). -/
theorem marker_of_destuff_ne_normal {sentinel : Byte} {d : Ds} {b : Byte} (h : (destuff sentinel d b).1 ≠ .normal) :
    b = Config.marker := by
  by_contra hb
  cases d with
  | normal => exact h (by rw [destuff_normal_other _ hb])
  | saw1 => exact h (by rw [destuff_saw1_other _ hb])
  | saw2 =>
    apply h
    simp only [destuff]
    split <;> rfl

/-! ### The statements -/

/-- Settles O15: each clause makes one output that does not fit. -/
theorem fullQueueHoldsReader : Obligations.FullQueueHoldsReader := by
  unfold Obligations.FullQueueHoldsReader
  intro s b rest hr
  refine ⟨?normal, ?saw1, ?saw2, ?ack, ?ctrl, ?flush⟩
  case normal =>
    intro hf ho hd hb hfull
    have houts : (rxByte s b).outs = [b] := by rw [rxByte_outs_data hf ho, hd, destuff_normal_other _ hb]
    exact exec_rxiByte_held_of_outs (by simp [houts]) (by simp only [houts, List.length_singleton]; omega)
  case saw1 =>
    intro hf ho hd hb hfull
    have houts : (rxByte s b).outs = [Config.marker, b] := by rw [rxByte_outs_data hf ho, hd, destuff_saw1_other _ hb]
    exact exec_rxiByte_held_of_outs (by simp [houts]) (by simpa [houts] using hfull)
  case saw2 =>
    intro hf ho hd hb hfull
    have houts : (rxByte s b).outs = [Config.marker, Config.marker] := by
      rw [rxByte_outs_data hf ho, hd, hb, destuff_saw2_sentinel]
    exact exec_rxiByte_held_of_outs (by simp [houts]) (by simpa [houts] using hfull)
  case ack =>
    intro hf hreq hlast hfull
    have hsome : ackRequest s ≠ none := by
      rcases hreq with ho | hall
      · simp [ackRequest_data ho]
      · simp [ackRequest, hall]
    exact exec_rxiByte_held_of_ack (by rwa [rxByte_ack_last hf hlast]) hfull
  case ctrl =>
    intro hf ho hlast hfull
    exact exec_rxiByte_held_of_ctrl (by simp [rxByte_ctrl_last hf ho hlast]) hfull
  case flush =>
    intro hf hp hfull hd
    have houts := rxByte_outs_last hf hp b
    have hne : withheld s.ds ≠ [] := by
      cases hds : s.ds with
      | normal => exact absurd hds hd
      | saw1 => simp [withheld]
      | saw2 => simp [withheld]
    exact exec_rxiByte_held_of_outs (by rwa [houts]) (by rwa [houts])

/-- Settles O12: the step is that of DataByteIsDestuffed, whose completion makes the request and the check of R221. -/
theorem completionRequestsAck : Obligations.CompletionRequestsAck := by
  unfold Obligations.CompletionRequestsAck
  intro s t b rest hrd hlast hroom ht
  have houts := destuff_outs_length s.params.litSentinel s.ds b
  obtain ⟨hdata, hbyte⟩ := dataByteIsDestuffed s b rest hrd (by omega)
  rw [hbyte, hdata, afterDataByte, if_pos hlast] at ht
  obtain rfl := Host.Outcome.next.inj ht
  refine ⟨rfl, rfl, fun h0 => ?_, fun hne => ?_⟩ <;> simp only [anomAfterRequest]
  · simp [h0]
  · simp only [ne_eq, hne, not_false_eq_true, true_and]

/-- Settles O22: only R131 writes `ds` with anything but Normal, and then the byte is a marker. -/
theorem withheldMarkersComeFromData : Obligations.WithheldMarkersComeFromData := by
  unfold Obligations.WithheldMarkersComeFromData
  intro s t b ht hds
  obtain rfl := Host.Outcome.next.inj ht
  rcases consume_cases s b (rxByte s b) with h | ⟨-, -, h⟩
  · exact .inr ⟨by rw [h], .inl h⟩
  · rw [h, commit_ds] at hds ⊢
    rcases rxByte_cases s b with ⟨hf, -, -, hrow⟩ | ⟨hf, -, -, hrow⟩ | ⟨hf, -, hrow⟩ | ⟨hf, hp, hrow⟩ | ⟨-, -, -, hrow⟩ |
        ⟨-, -, -, hrow⟩ | ⟨hf, ho, hrow⟩ | ⟨hf, ho, hrow⟩ <;> rw [hrow] at hds ⊢
    · exact .inr ⟨rfl, .inr (.inl hf)⟩
    · exact .inr ⟨rfl, .inr (.inl hf)⟩
    · exact .inr ⟨rfl, .inr (.inl hf)⟩
    · exact .inr ⟨rfl, .inr (.inr (.inl ⟨hf, by rintro h6; simp [h6] at hp⟩))⟩
    · exact absurd rfl hds
    · exact absurd rfl hds
    · rw [rxData, payloadByte_ds] at hds
      exact .inl ⟨hf, ho, marker_of_destuff_ne_normal hds⟩
    · exact .inr ⟨by rw [rxCtrl, payloadByte_ds], .inr (.inr (.inr ⟨hf, ho⟩))⟩

/-- A stopped reader takes nothing of a line: its bytes stay in `rx_in` (R138). -/
theorem rxTurns_of_stopped {s : State} (hl : s.rxLive = false) (n : Nat) : rxTurns n s = s := by
  induction n with
  | zero => rfl
  | succ n ih => rw [rxTurns, (rxTurn_moves s).eq_of_stopped hl, ih]

theorem rxLine_of_stopped {s : State} (hl : s.rxLive = false) (bytes : List Byte) :
    rxLine s bytes = { s with rxIn := s.rxIn ++ bytes.map .byte } :=
  rxTurns_of_stopped (s := s.deliver (bytes.map .byte)) hl bytes.length

/-- Settles O14: no move of the RX engine, and so none on the bytes of a packet. -/
theorem stoppedReaderIsHeld : Obligations.StoppedReaderIsHeld := by
  unfold Obligations.StoppedReaderIsHeld
  refine ⟨fun s i hl hi => ?_, fun s rsv seq op dest body hl => ⟨?_, ?_⟩, fun s seq rseq rlen hl => ?_⟩
  · obtain ⟨t, h⟩ := exec_goesOn i s
    rw [h, (exec_rx_moves hi h).eq_of_stopped hl]
  all_goals exact congrArg Host.Outcome.next (rxLine_of_stopped hl _)

end Sys2Proof.Machine
end

section
/-! SUPPORT and RESULTS. The de-stuffer over byte strings (spec/41_destuff.md section 4), and stuffing as its inverse
(42_encoder.md R184). -/

namespace Sys2Proof.Machine

/-! ### Byte strings and tokens -/

theorem destuffAll_append (sentinel : Byte) (d : Ds) (xs ys : List Byte) :
    destuffAll sentinel d (xs ++ ys) =
      ((destuffAll sentinel (destuffAll sentinel d xs).1 ys).1,
        (destuffAll sentinel d xs).2 ++ (destuffAll sentinel (destuffAll sentinel d xs).1 ys).2) := by
  induction xs generalizing d with
  | nil => rfl
  | cons b bs ih => simp only [List.cons_append, destuffAll, ih, List.append_assoc]

theorem destuffAll_append_of_eq {sentinel : Byte} {d e : Ds} {xs out : List Byte}
    (h : destuffAll sentinel d xs = (e, out)) (ys : List Byte) :
    destuffAll sentinel d (xs ++ ys) = ((destuffAll sentinel e ys).1, out ++ (destuffAll sentinel e ys).2) := by
  rw [destuffAll_append, h]

/-- R88: a token from Normal gives its output and ends in Normal. -/
theorem destuffAll_token {sentinel : Byte} {t : Token} (h : t.ok sentinel) :
    destuffAll sentinel .normal (t.bytes sentinel) = (.normal, t.output) := by
  cases t with
  | plain b => simp [Token.bytes, Token.output, destuffAll, destuff_normal_other sentinel h]
  | lone x => simp [Token.bytes, Token.output, destuffAll, destuff_saw1_other sentinel h]
  | pair => simp [Token.bytes, Token.output, destuffAll]
  | status v => simp [Token.bytes, Token.output, destuffAll, destuff_saw2_other h]

theorem destuffAll_tokens {sentinel : Byte} {ts : List Token} (h : ∀ t ∈ ts, t.ok sentinel) :
    destuffAll sentinel .normal (ts.flatMap (Token.bytes sentinel)) = (.normal, ts.flatMap Token.output) := by
  induction ts with
  | nil => rfl
  | cons t ts ih =>
    obtain ⟨ht, hts⟩ := List.forall_mem_cons.mp h
    rw [List.flatMap_cons, List.flatMap_cons, destuffAll_append_of_eq (destuffAll_token ht), ih hts]

/-- Settles O20: the tokens end in Normal, where one or two markers are withheld. -/
theorem tokensGiveTheirOutputs : Obligations.TokensGiveTheirOutputs := by
  unfold Obligations.TokensGiveTheirOutputs
  intro sentinel ts h
  have htokens := destuffAll_tokens h
  refine ⟨htokens, ?_, ?_⟩
  · rw [destuffAll_append_of_eq htokens]
    exact Prod.ext rfl (List.append_nil _)
  · rw [destuffAll_append_of_eq htokens]
    exact Prod.ext rfl (List.append_nil _)

/-! ### Stuffing without a limit -/

/-- The wire bytes of a payload stuffed with no chunk closed, from a given pair count (R184). -/
def stuffed (sentinel : Byte) : Bool → List Byte → List Byte
  | _, [] => []
  | unpaired, b :: bs => expansion sentinel unpaired b ++ stuffed sentinel (stillUnpaired unpaired b) bs

/-- The de-stuffer's state where the stuffed bytes so far end in an unpaired marker, or do not. -/
def dsOf (unpaired : Bool) : Ds := if unpaired then .saw1 else .normal

/-- One raw byte through the encoder and the decoder: what was withheld and the byte come out, or are still withheld. -/
theorem destuffAll_expansion (sentinel : Byte) (unpaired : Bool) (b : Byte) :
    (destuffAll sentinel (dsOf unpaired) (expansion sentinel unpaired b)).1 = dsOf (stillUnpaired unpaired b) ∧
    (destuffAll sentinel (dsOf unpaired) (expansion sentinel unpaired b)).2 ++ withheld (dsOf (stillUnpaired unpaired b)) =
      withheld (dsOf unpaired) ++ [b] := by
  by_cases hb : b = Config.marker
  · subst hb
    cases unpaired <;> simp [dsOf, expansion, stillUnpaired, destuffAll, withheld]
  · cases unpaired
    · simp [dsOf, expansion, stillUnpaired, destuffAll, withheld, hb, destuff_normal_other sentinel hb]
    · simp [dsOf, expansion, stillUnpaired, destuffAll, withheld, hb, destuff_saw1_other sentinel hb]

/-- Stuffed bytes de-stuff to the payload, but for a marker that is still withheld. -/
theorem destuffAll_stuffed (sentinel : Byte) (unpaired : Bool) (p : List Byte) :
    (destuffAll sentinel (dsOf unpaired) (stuffed sentinel unpaired p)).1 = dsOf (p.foldl stillUnpaired unpaired) ∧
    (destuffAll sentinel (dsOf unpaired) (stuffed sentinel unpaired p)).2 ++
      withheld (dsOf (p.foldl stillUnpaired unpaired)) = withheld (dsOf unpaired) ++ p := by
  induction p generalizing unpaired with
  | nil => simp [stuffed, destuffAll]
  | cons b bs ih =>
    obtain ⟨hds, hout⟩ := destuffAll_expansion sentinel unpaired b
    obtain ⟨ihds, ihout⟩ := ih (stillUnpaired unpaired b)
    rw [stuffed, destuffAll_append, hds, List.foldl_cons]
    refine ⟨ihds, ?_⟩
    rw [List.append_assoc, ihout, ← List.append_assoc, hout, List.append_assoc, List.singleton_append]

theorem markerTail_concat (p : List Byte) (b : Byte) :
    markerTail (p ++ [b]) = if b = Config.marker then markerTail p + 1 else 0 := by
  by_cases hb : b = Config.marker <;> simp [markerTail, hb]

/-- The pair count of R184 over a payload is the parity of the markers it ends in. -/
theorem foldl_stillUnpaired (p : List Byte) : p.foldl stillUnpaired false = decide (markerTail p % 2 = 1) := by
  induction p using List.reverseRecOn with
  | nil => rfl
  | append_singleton p b ih =>
    rw [List.foldl_concat, ih, markerTail_concat, stillUnpaired]
    by_cases hb : b = Config.marker
    · rcases Nat.mod_two_eq_zero_or_one (markerTail p) with h | h <;> simp [hb, h, Nat.add_mod]
    · simp [hb]

/-- Where no chunk closes, the chunk filled so far goes on with the stuffed bytes. -/
theorem stuffFrom_of_rest_nil {sentinel : Byte} {limit : Nat} {chunk : List Byte} {unpaired : Bool} {p : List Byte}
    (h : (stuffFrom sentinel limit chunk unpaired p).rest = []) :
    stuffFrom sentinel limit chunk unpaired p = { first := chunk ++ stuffed sentinel unpaired p, rest := [] } := by
  induction p generalizing chunk unpaired with
  | nil => simp [stuffFrom, stuffed]
  | cons b bs ih =>
    rw [stuffFrom] at h ⊢
    split at h
    · simp [Chunks.push] at h
    next hfits => rw [if_neg hfits, ih h, stuffed, List.append_assoc]

/-- Settles O21: the chunk is the payload stuffed, and the pair count at its end is the parity of the final run. -/
theorem destuffInvertsStuff : Obligations.DestuffInvertsStuff := by
  unfold Obligations.DestuffInvertsStuff
  intro sentinel limit r w h
  have hw : w = stuffed sentinel false r := by
    have hone := stuffFrom_of_rest_nil (sentinel := sentinel) (limit := limit) (chunk := []) (unpaired := false) (p := r)
      (by rw [stuffChunks] at h; rw [h])
    rw [stuffChunks, hone] at h
    exact (Chunks.mk.inj h).1.symm
  obtain ⟨hds, hout⟩ := destuffAll_stuffed sentinel false r
  rw [foldl_stillUnpaired, ← hw] at hds hout
  refine ⟨fun hodd => ?_, fun heven => ?_⟩
  · rw [decide_eq_true hodd] at hds hout
    exact ⟨_, Prod.ext hds rfl, hout.symm⟩
  · rw [decide_eq_false (by omega)] at hds hout
    exact Prod.ext hds (by simpa [dsOf, withheld] using hout)

end Sys2Proof.Machine
end

section
/-! SUPPORT and RESULTS. Chunking (spec/42_encoder.md R183 to R185). -/

namespace Sys2Proof.Machine

@[simp] theorem Chunks.toList_push (chunk : List Byte) (more : Chunks) : (more.push chunk).toList = chunk :: more.toList := rfl

@[simp] theorem Chunks.toList_ne_nil (c : Chunks) : c.toList ≠ [] := List.cons_ne_nil _ _

/-! ### Plain chunks -/

theorem plainFrom_flatten (limit : Nat) (chunk p : List Byte) : (plainFrom limit chunk p).toList.flatten = chunk ++ p := by
  induction p generalizing chunk with
  | nil => simp [plainFrom, Chunks.toList]
  | cons b bs ih =>
    rw [plainFrom]
    split
    · rw [Chunks.toList_push, List.flatten_cons, ih, List.singleton_append]
    · rw [ih, List.append_assoc, List.singleton_append]

/-- Every chunk that is closed is full. -/
theorem plainFrom_closed {limit : Nat} (hlimit : 1 ≤ limit) {chunk : List Byte} (hchunk : chunk.length ≤ limit)
    (p : List Byte) :
    ∀ c ∈ (plainFrom limit chunk p).toList.dropLast, c.length = limit := by
  induction p generalizing chunk with
  | nil => simp [plainFrom, Chunks.toList]
  | cons b bs ih =>
    rw [plainFrom]
    split
    next hfull =>
      rw [Chunks.toList_push, List.dropLast_cons_of_ne_nil (Chunks.toList_ne_nil _)]
      exact List.forall_mem_cons.mpr ⟨by omega, ih (by simpa using hlimit)⟩
    next hfits => exact ih (by simpa using hfits)

/-- Every chunk fits, and none is empty where there is a byte. -/
theorem plainFrom_fits {limit : Nat} (hlimit : 1 ≤ limit) {chunk : List Byte} (hchunk : chunk.length ≤ limit) (p : List Byte) :
    ∀ c ∈ (plainFrom limit chunk p).toList, c.length ≤ limit ∧ (chunk ++ p ≠ [] → c ≠ []) := by
  induction p generalizing chunk with
  | nil => simpa [plainFrom, Chunks.toList] using hchunk
  | cons b bs ih =>
    rw [plainFrom]
    split
    next hfull =>
      rw [Chunks.toList_push]
      refine List.forall_mem_cons.mpr ⟨⟨hchunk, fun _ => List.ne_nil_of_length_pos (by omega)⟩, fun c hc => ?_⟩
      obtain ⟨hle, hne⟩ := ih (by simpa using hlimit) c hc
      exact ⟨hle, fun _ => hne (by simp)⟩
    next hfits =>
      intro c hc
      obtain ⟨hle, hne⟩ := ih (by simpa using hfits) c hc
      exact ⟨hle, fun _ => hne (by simp)⟩

/-- Settles O36: the chunks closed and the last one. -/
theorem plainChunksCutPayload : Obligations.PlainChunksCutPayload := by
  unfold Obligations.PlainChunksCutPayload
  intro limit p hlimit
  refine ⟨plainFrom_flatten limit [] p, plainFrom_closed hlimit (Nat.zero_le _) p, fun c hc => ?_, rfl⟩
  obtain ⟨hle, hne⟩ := plainFrom_fits hlimit (Nat.zero_le _) p c (List.mem_of_getLast? hc)
  exact ⟨hle, fun hp => List.length_pos_of_ne_nil (hne hp)⟩

theorem plainFrom_length {limit : Nat} (hlimit : 1 ≤ limit) {chunk : List Byte} (hchunk : chunk.length ≤ limit)
    (p : List Byte) :
    (plainFrom limit chunk p).toList.length = max 1 ((chunk.length + p.length + limit - 1) / limit) := by
  induction p generalizing chunk with
  | nil =>
    have hone : (chunk.length + limit - 1) / limit ≤ 1 := by
      rw [← Nat.lt_succ_iff, Nat.div_lt_iff_lt_mul (by omega)]
      omega
    simp only [plainFrom, Chunks.toList, List.length_cons, List.length_nil, Nat.add_zero]
    omega
  | cons b bs ih =>
    rw [plainFrom]
    split
    next hfull =>
      have hstep : (chunk.length + (bs.length + 1) + limit - 1) / limit = (1 + bs.length + limit - 1) / limit + 1 := by
        rw [← Nat.add_div_right _ (by omega)]
        congr 1
        omega
      have hpos : 1 ≤ (1 + bs.length + limit - 1) / limit := by
        rw [Nat.one_le_div_iff (by omega)]
        omega
      rw [Chunks.toList_push, List.length_cons, ih (chunk := [b]) hlimit, List.length_singleton, List.length_cons, hstep]
      omega
    next hfits =>
      rw [ih (by simpa using hfits), List.length_append, List.length_singleton, List.length_cons]
      congr 3
      omega

/-! ### Stuffed chunks -/

theorem expansion_length (sentinel : Byte) (unpaired : Bool) (b : Byte) :
    1 ≤ (expansion sentinel unpaired b).length ∧ (expansion sentinel unpaired b).length ≤ 2 := by
  unfold expansion
  split
  · split <;> simp
  · simp

/-- Every stuffed chunk fits, and none is empty where there is a byte. -/
theorem stuffFrom_fits (sentinel : Byte) {limit : Nat} (hlimit : 2 ≤ limit) {chunk : List Byte} (hchunk : chunk.length ≤ limit)
    (unpaired : Bool) (p : List Byte) :
    ∀ c ∈ (stuffFrom sentinel limit chunk unpaired p).toList, c.length ≤ limit ∧ (chunk ++ p ≠ [] → c ≠ []) := by
  induction p generalizing chunk unpaired with
  | nil => simpa [stuffFrom, Chunks.toList] using hchunk
  | cons b bs ih =>
    obtain ⟨hlo, hhi⟩ := expansion_length sentinel unpaired b
    rw [stuffFrom]
    split
    next hfull =>
      obtain ⟨hlo', hhi'⟩ := expansion_length sentinel false b
      rw [Chunks.toList_push]
      refine List.forall_mem_cons.mpr ⟨⟨hchunk, fun _ => List.ne_nil_of_length_pos (by omega)⟩, fun c hc => ?_⟩
      obtain ⟨hle, hne⟩ := ih (by omega) (stillUnpaired false b) c hc
      exact ⟨hle, fun _ => hne (by simp [List.ne_nil_of_length_pos hlo'])⟩
    next hfits =>
      intro c hc
      obtain ⟨hle, hne⟩ := ih (by simpa using hfits) (stillUnpaired unpaired b) c hc
      exact ⟨hle, fun _ => hne (by simp [List.ne_nil_of_length_pos hlo])⟩

/-- A stuffed chunk that is closed lacks at most one byte, since an expansion has at most two. -/
theorem stuffFrom_closed (sentinel : Byte) (limit : Nat) (chunk : List Byte) (unpaired : Bool) (p : List Byte) :
    ∀ c ∈ (stuffFrom sentinel limit chunk unpaired p).toList.dropLast, limit - 1 ≤ c.length := by
  induction p generalizing chunk unpaired with
  | nil => simp [stuffFrom, Chunks.toList]
  | cons b bs ih =>
    obtain ⟨-, hhi⟩ := expansion_length sentinel unpaired b
    rw [stuffFrom]
    split
    next hfull =>
      rw [Chunks.toList_push, List.dropLast_cons_of_ne_nil (Chunks.toList_ne_nil _)]
      exact List.forall_mem_cons.mpr ⟨by omega, ih _ _⟩
    next hfits => exact ih _ _

/-- Settles O37: every chunk, then those closed. -/
theorem stuffedChunksFit : Obligations.StuffedChunksFit := by
  unfold Obligations.StuffedChunksFit
  intro sentinel limit p hlimit
  exact ⟨stuffFrom_fits sentinel hlimit (Nat.zero_le _) false p, stuffFrom_closed sentinel limit [] false p, rfl⟩

/-- Every body the encoder makes fits in a packet (R183, R184). -/
theorem packetize_fits {p : Params} (hp : p.valid) (op : Byte) (payload : List Byte) :
    ∀ body ∈ (packetize p op payload).toList, body.length ≤ p.maxPayload := by
  obtain ⟨-, -, -, hmin, -⟩ := hp
  have hlimit : 4 ≤ p.maxPayload := by unfold Params.maxPayload Config.hdrLen; omega
  intro body hb
  unfold packetize at hb
  split at hb
  · exact (stuffFrom_fits p.litSentinel (by omega) (Nat.zero_le _) false payload body hb).1
  · exact (plainFrom_fits (by omega) (Nat.zero_le _) payload body hb).1

/-! ### How many chunks -/

/-- The stuffed bytes from an unpaired marker and from none differ by at most one byte. -/
theorem stuffed_length_true (sentinel : Byte) (p : List Byte) :
    (stuffed sentinel false p).length ≤ (stuffed sentinel true p).length ∧
    (stuffed sentinel true p).length ≤ (stuffed sentinel false p).length + 1 := by
  induction p with
  | nil => simp [stuffed]
  | cons b bs ih =>
    by_cases hb : b = Config.marker
    · simp [stuffed, expansion, stillUnpaired, hb]
      omega
    · simp [stuffed, expansion, stillUnpaired, hb]

theorem stuffed_length_le (sentinel : Byte) (unpaired : Bool) (p : List Byte) :
    (stuffed sentinel unpaired p).length ≤ 2 * p.length := by
  induction p generalizing unpaired with
  | nil => simp [stuffed]
  | cons b bs ih =>
    have hexp := expansion_length sentinel unpaired b
    have hrest := ih (stillUnpaired unpaired b)
    rw [stuffed, List.length_append, List.length_cons]
    omega

/-- A chunk with room for all that follows is not closed. -/
theorem stuffFrom_of_fits {sentinel : Byte} {limit : Nat} {chunk : List Byte} {unpaired : Bool} {p : List Byte}
    (h : chunk.length + (stuffed sentinel unpaired p).length ≤ limit) :
    stuffFrom sentinel limit chunk unpaired p = { first := chunk ++ stuffed sentinel unpaired p, rest := [] } := by
  apply stuffFrom_of_rest_nil
  induction p generalizing chunk unpaired with
  | nil => rfl
  | cons b bs ih =>
    rw [stuffed, List.length_append] at h
    rw [stuffFrom, if_neg (by omega)]
    exact ih (by rw [List.length_append]; omega)

theorem stuffWhole_eq (sentinel : Byte) (p : List Byte) : stuffWhole sentinel p = stuffed sentinel false p := by
  rw [stuffWhole, stuffChunks, stuffFrom_of_fits (by simpa using stuffed_length_le sentinel false p), List.nil_append]

/-- One chunk exactly when the payload stuffed whole fits (R185). -/
theorem stuffChunks_length_eq_one_iff (sentinel : Byte) {limit : Nat} (hlimit : 2 ≤ limit) (p : List Byte) :
    (stuffChunks sentinel limit p).toList.length = 1 ↔ (stuffed sentinel false p).length ≤ limit := by
  constructor
  · intro h
    have hone := stuffFrom_of_rest_nil (sentinel := sentinel) (limit := limit) (chunk := []) (unpaired := false) (p := p)
      (by simpa [stuffChunks, Chunks.toList] using h)
    have hfits := stuffFrom_fits sentinel hlimit (chunk := []) (Nat.zero_le _) false p
    rw [hone] at hfits
    exact (hfits _ (by simp [Chunks.toList])).1
  · intro h
    rw [stuffChunks, stuffFrom_of_fits (by simpa using h)]
    rfl

/-- The bytes in all chunks are at least the raw bytes, and at most those of the payload stuffed with no cut: a cut behind an
unpaired marker saves the next marker's sentinel, and costs at most one later. -/
theorem stuffFrom_flatten_length (sentinel : Byte) (limit : Nat) (chunk : List Byte) (unpaired : Bool) (p : List Byte) :
    chunk.length + p.length ≤ (stuffFrom sentinel limit chunk unpaired p).toList.flatten.length ∧
    (stuffFrom sentinel limit chunk unpaired p).toList.flatten.length ≤
      chunk.length + (stuffed sentinel unpaired p).length := by
  induction p generalizing chunk unpaired with
  | nil => simp [stuffFrom, stuffed, Chunks.toList]
  | cons b bs ih =>
    rw [stuffFrom, stuffed, List.length_append, List.length_cons]
    split
    next hfull =>
      have hexp := expansion_length sentinel false b
      have hrest := ih (expansion sentinel false b) (stillUnpaired false b)
      have hcut : (expansion sentinel false b).length + (stuffed sentinel (stillUnpaired false b) bs).length ≤
          (expansion sentinel unpaired b).length + (stuffed sentinel (stillUnpaired unpaired b) bs).length := by
        have htrue := stuffed_length_true sentinel bs
        cases unpaired with
        | false => exact le_rfl
        | true =>
          by_cases hb : b = Config.marker
          · simp [expansion, stillUnpaired, hb]
            omega
          · simp [expansion, stillUnpaired, hb]
      rw [Chunks.toList_push, List.flatten_cons, List.length_append]
      omega
    next hfits =>
      have hexp := expansion_length sentinel unpaired b
      have hrest := ih (chunk ++ expansion sentinel unpaired b) (stillUnpaired unpaired b)
      rw [List.length_append] at hrest
      omega

/-- The bytes of some chunks that fit. -/
theorem flatten_length_le {chunks : List (List Byte)} {limit : Nat} (h : ∀ c ∈ chunks, c.length ≤ limit) :
    chunks.flatten.length ≤ chunks.length * limit := by
  induction chunks with
  | nil => simp
  | cons c cs ih =>
    obtain ⟨hc, hcs⟩ := List.forall_mem_cons.mp h
    have hrest := ih hcs
    rw [List.flatten_cons, List.length_append, List.length_cons, Nat.add_mul]
    omega

/-- The bytes of some chunks that are full but for the last, which is not empty. -/
theorem lt_flatten_length {chunks : List (List Byte)} {fill : Nat} (hne : chunks ≠ [])
    (hfull : ∀ c ∈ chunks.dropLast, fill ≤ c.length) (hpos : ∀ c ∈ chunks, c ≠ []) :
    (chunks.length - 1) * fill < chunks.flatten.length := by
  induction chunks with
  | nil => exact absurd rfl hne
  | cons c cs ih =>
    obtain ⟨hc, hcs⟩ := List.forall_mem_cons.mp hpos
    have hcpos := List.length_pos_of_ne_nil hc
    by_cases hnil : cs = []
    · subst hnil
      simpa using hcpos
    · rw [List.dropLast_cons_of_ne_nil hnil] at hfull
      obtain ⟨hcfull, hcsfull⟩ := List.forall_mem_cons.mp hfull
      have hrest := ih hnil hcsfull hcs
      have hlen := List.length_pos_of_ne_nil hnil
      have hmul : cs.length * fill = (cs.length - 1) * fill + fill := by
        rw [← Nat.succ_mul]
        congr 1
        omega
      rw [List.flatten_cons, List.length_append, List.length_cons, Nat.add_sub_cancel, hmul]
      omega

/-- Settles O38: plain chunks by counting, stuffed chunks by the bytes they hold. -/
theorem chunkCountBounds : Obligations.ChunkCountBounds := by
  unfold Obligations.ChunkCountBounds
  intro sentinel limit p hlimit
  have hfits := stuffFrom_fits sentinel (by omega : 2 ≤ limit) (chunk := []) (Nat.zero_le _) false p
  obtain ⟨hlo, hhi⟩ := stuffFrom_flatten_length sentinel limit [] false p
  have hpos : 1 ≤ (stuffChunks sentinel limit p).toList.length := List.length_pos_of_ne_nil (Chunks.toList_ne_nil _)
  rw [stuffWhole_eq]
  refine ⟨?plain, stuffChunks_length_eq_one_iff sentinel (by omega) p, max_le hpos ?lower, ?upper⟩
  case plain =>
    have hlen := plainFrom_length (by omega : 1 ≤ limit) (chunk := []) (Nat.zero_le _) p
    simpa [plainChunks] using hlen
  case lower =>
    have hbytes := flatten_length_le fun c hc => (hfits c hc).1
    rw [← Nat.lt_succ_iff, Nat.div_lt_iff_lt_mul (by omega), Nat.succ_mul]
    simp only [List.length_nil, Nat.zero_add] at hlo
    unfold stuffChunks
    omega
  case upper =>
    by_cases hp : p = []
    · subst hp
      exact le_max_left 1 _
    · have hbytes := lt_flatten_length (Chunks.toList_ne_nil _) (stuffFrom_closed sentinel limit [] false p)
        fun c hc => (hfits c hc).2 hp
      refine le_max_of_le_right ?_
      have hdiv : (stuffChunks sentinel limit p).toList.length - 1 ≤
          ((stuffed sentinel false p).length - 1) / (limit - 1) := by
        rw [Nat.le_div_iff_mul_le (by omega)]
        simp only [List.length_nil, Nat.zero_add] at hhi
        unfold stuffChunks
        omega
      omega

end Sys2Proof.Machine
end

section
/-! SUPPORT and RESULTS. The TX engine (spec/42_encoder.md R180 to R188): the sequence counter, the host's packets, and a run
of it until nothing is pending. -/

namespace Sys2Proof.Machine

/-! ### The sequence counter -/

/-- R182 on a legal value: the successor modulo 0xFFFF. -/
theorem nextseq_toNat {x : Word} (h : x.toNat ≤ 0xFFFE) : (nextseq x).toNat = (x.toNat + 1) % 0xFFFF := by
  unfold nextseq
  split
  next hx => rw [hx]; rfl
  next hx =>
    have hne : x.toNat ≠ 0xFFFE := fun heq => hx (BitVec.eq_of_toNat_eq heq)
    rw [BitVec.toNat_add, show (1 : Word).toNat = 1 from rfl]
    omega

/-- Settles O35: the wrap, and the successor below it. -/
theorem sequenceSkipsFfff : Obligations.SequenceSkipsFfff := by
  unfold Obligations.SequenceSkipsFfff
  refine ⟨rfl, fun x hx => ?_⟩
  rw [nextseq_toNat (by omega), Nat.mod_eq_of_lt (by omega)]

/-! ### The packet that is picked -/

/-- TX_STEP, where the writer is live and a packet is picked. -/
theorem exec_txStep_pick {s : State} {e : Emission} (hl : s.txLive = true) (hp : txPick s = some e) :
    exec .txStep s = .next (emit e) := by
  rw [exec, execTxStep, txTurn_enabled hl hp]

/-- A host packet is PKT_DATA or PKT_CTRL by its opcode, and that row is the step which emits it (R84, R180). -/
theorem exec_hostPacket {s : State} {e : Emission} (hl : s.txLive = true) (hq : s.ackq = []) (hp : txHost s = some e) :
    exec .txStep s = .next (emit e) ∧
    (e.op = s.params.opData → exec (.pktData .sent 0x00 s.txSeq e.dest e.body) s = exec .txStep s) ∧
    (e.op ≠ s.params.opData → exec (.pktCtrl .sent 0x00 s.txSeq e.op e.dest e.body) s = exec .txStep s) := by
  have hnow : txHostNow s = some e := by rw [txHostNow, hq, hp]
  have hstep := exec_txStep_pick hl (txHostNow_txPick hnow)
  have hsend : txSends s (txHostNow s) 0x00 s.txSeq e.op e.dest e.body = emit e := by
    rw [hnow]
    exact txSends_enabled hl
  rw [hstep]
  refine ⟨rfl, fun hop => ?_, fun hop => ?_⟩
  · rw [exec, execPktData, ← hop, hsend]
  · rw [exec, execPktCtrl, if_neg hop, hsend]

/-- Settles O32: the packet picked is the first of the chunks left. -/
theorem currentChunkIsEmitted : Obligations.CurrentChunkIsEmitted := by
  unfold Obligations.CurrentChunkIsEmitted
  intro s op dest c cs hl hq hc
  have hp : txHost s = some (Emission.mk op dest c { s with cur := afterFirst op dest { first := c, rest := cs } }) := by
    rw [txHost, hc]
  obtain ⟨hstep, hdata, hctrl⟩ := exec_hostPacket hl hq hp
  refine ⟨?_, hdata, hctrl⟩
  rw [hstep]
  cases cs <;> rfl

/-- Settles O33: the packet picked is the first of the command's chunks. -/
theorem nextCommandIsStarted : Obligations.NextCommandIsStarted := by
  unfold Obligations.NextCommandIsStarted
  intro s op dest payload c cs qs hl hq hc htxq hchunks
  have hp : txHost s =
      some (Emission.mk op dest c { s with txq := qs, cur := afterFirst op dest { first := c, rest := cs } }) := by
    simp only [txHost, hc, htxq, hchunks]
  obtain ⟨hstep, hdata, hctrl⟩ := exec_hostPacket hl hq hp
  refine ⟨?_, hdata, hctrl, fun hop => if_pos hop, fun hop => if_neg hop⟩
  rw [hstep]
  cases cs <;> rfl

/-- A packet picked leaves the wire and the counter to the emission. -/
theorem txPick_st {s : State} {e : Emission} (h : txPick s = some e) :
    e.st.txOut = s.txOut ∧ e.st.txSeq = s.txSeq ∧ e.st.txLive = s.txLive ∧ e.st.params = s.params := by
  rcases txPick_cases h with ⟨r, rs, -, rfl⟩ | ⟨-, c, -, rfl⟩ | ⟨-, -, q, qs, -, rfl⟩ <;> exact ⟨rfl, rfl, rfl, rfl⟩

/-- R186: every body that is picked fits in a packet. -/
theorem txPick_body_fits {s : State} (hs : Legal s) {e : Emission} (h : txPick s = some e) :
    e.body.length ≤ s.params.maxPayload := by
  rcases txPick_cases h with ⟨r, rs, -, rfl⟩ | ⟨-, c, hc, rfl⟩ | ⟨-, -, q, qs, -, rfl⟩
  · obtain ⟨-, -, -, hmin, -⟩ := hs.params
    simp only [ackBody, List.length_cons, List.length_nil, Params.maxPayload, Config.hdrLen]
    omega
  · exact hs.bodies c hc _ (List.mem_cons_self ..)
  · exact packetize_fits hs.params q.op q.payload _ (List.mem_cons_self ..)

/-- Settles O39: the one packet that a step emits, then the layout of R80 and the byte order of R8. -/
theorem onePacketPerTxStep : Obligations.OnePacketPerTxStep := by
  unfold Obligations.OnePacketPerTxStep
  refine ⟨fun s t hs ht => ?packet, fun rsv seq op dest body hbody => ⟨wireBytes_eq_layout rsv seq op dest hbody, rfl⟩,
    fun v => ⟨hi8_toNat v, lo8_toNat v⟩, be16_toNat⟩
  case packet =>
    rcases exec_tx_moves rfl ht with rfl | ⟨-, e, hp, rfl⟩
    · exact .inl rfl
    · obtain ⟨hout, hseq, -, -⟩ := txPick_st hp
      obtain ⟨-, -, -, hmin, hmax, -⟩ := hs.params
      have hbody := txPick_body_fits hs hp
      have hpayload : s.params.maxPayload + 10 = s.params.maxPacket := by unfold Params.maxPayload Config.hdrLen; omega
      refine .inr ⟨e.op, e.dest, e.body, by rw [emit_txOut, hout, hseq], ?_, hbody, ?_⟩
      · rw [packet, wireBytes_length]
        omega
      · rw [be16_hi8_lo8, BitVec.toNat_ofNat]
        omega

/-! ### Packets pending -/

/-- The packets of the SEND in progress. -/
def curPackets (cur : Option Current) : Nat := match cur with | none => 0 | some c => c.chunks.toList.length

theorem pending_eq (s : State) :
    pending s = s.ackq.length + curPackets s.cur + (s.txq.map (packetsOf s.params)).sum := by
  unfold pending curPackets
  cases s.cur <;> rfl

/-- The first body of a command goes out, and the others are still pending. -/
theorem curPackets_afterFirst (op dest : Byte) (c : Chunks) : curPackets (afterFirst op dest c) + 1 = c.toList.length := by
  obtain ⟨first, rest⟩ := c
  cases rest <;> rfl

/-- A packet picked is one of those pending. -/
theorem pending_emit {s : State} {e : Emission} (h : txPick s = some e) : pending (emit e) + 1 = pending s := by
  rcases txPick_cases h with ⟨r, rs, hq, rfl⟩ | ⟨hq, c, hc, rfl⟩ | ⟨hq, hc, q, qs, htxq, rfl⟩
  · simp only [pending_eq, emit_ackq, emit_cur, emit_txq, emit_params, hq, List.length_cons]
    omega
  · have hrest := curPackets_afterFirst c.op c.dest c.chunks
    simp only [pending_eq, emit_ackq, emit_cur, emit_txq, emit_params, hc, curPackets] at hrest ⊢
    omega
  · have hrest := curPackets_afterFirst q.op q.dest (packetize s.params q.op q.payload)
    simp only [pending_eq, emit_ackq, emit_cur, emit_txq, emit_params, hc, htxq, List.map_cons, List.sum_cons, packetsOf,
      curPackets] at hrest ⊢
    omega

/-- Nothing is pending exactly when the engine is idle: every command makes at least one packet. -/
theorem pending_eq_zero_iff (s : State) : pending s = 0 ↔ TxIdle s := by
  constructor
  · intro h
    by_contra hbusy
    cases hp : txPick s with
    | none => exact hbusy ((txPick_none_iff s).mp hp)
    | some e =>
      have := pending_emit hp
      omega
  · rintro ⟨hq, hc, htxq⟩
    simp [pending_eq, curPackets, hq, hc, htxq]

/-- With a live writer and a packet pending, a step emits one. -/
theorem txTurn_of_pending {s : State} (hl : s.txLive = true) (h : pending s ≠ 0) :
    ∃ e, txPick s = some e ∧ txTurn s = emit e := by
  cases hp : txPick s with
  | none => exact absurd ((pending_eq_zero_iff s).mpr ((txPick_none_iff s).mp hp)) h
  | some e => exact ⟨e, rfl, txTurn_enabled hl hp⟩

/-! ### A run of the TX engine -/

theorem txTurns_succ (n : Nat) (s : State) : txTurns (n + 1) s = txTurn (txTurns n s) := by
  induction n generalizing s with
  | zero => rfl
  | succ n ih => exact ih (txTurn s)

/-- As many steps as packets are pending send as many, and take as many sequence numbers (R188). -/
theorem txTurns_drain {s : State} {k : Nat} (hl : s.txLive = true) (hseq : s.txSeq.toNat ≤ 0xFFFE) (hk : k ≤ pending s) :
    (txTurns k s).txLive = true ∧ pending (txTurns k s) = pending s - k ∧
    (txTurns k s).txSeq.toNat = (s.txSeq.toNat + k) % 0xFFFF := by
  induction k with
  | zero =>
    have hzero : s.txSeq.toNat = (s.txSeq.toNat + 0) % 0xFFFF := by omega
    exact ⟨hl, rfl, hzero⟩
  | succ k ih =>
    obtain ⟨ihl, ihpending, ihseq⟩ := ih (by omega)
    obtain ⟨e, hp, hstep⟩ := txTurn_of_pending ihl (by omega)
    have hpending := pending_emit hp
    obtain ⟨-, hseq', hl', -⟩ := txPick_st hp
    rw [txTurns_succ, hstep, emit_txLive, emit_txSeq, hl', hseq', nextseq_toNat (by omega)]
    exact ⟨ihl, by omega, by omega⟩

/-- Settles O40: the run of `txTurns_drain`, and one step more. -/
theorem txEngineDrains : Obligations.TxEngineDrains := by
  unfold Obligations.TxEngineDrains
  intro s k hl hseq hk
  obtain ⟨hl', hpending, hseq'⟩ := txTurns_drain hl hseq hk
  refine ⟨hpending, hseq', fun hall => (pending_eq_zero_iff _).mp (by omega), fun hmore => ?_⟩
  obtain ⟨e, hp, hstep⟩ := txTurn_of_pending hl' (by omega)
  obtain ⟨hout, hnum, -, -⟩ := txPick_st hp
  have hnumber : (txTurns k s).txSeq = BitVec.ofNat 16 ((s.txSeq.toNat + k) % 0xFFFF) := by
    rw [← hseq', BitVec.ofNat_toNat, BitVec.setWidth_eq]
  exact ⟨e.op, e.dest, e.body, by rw [txTurns_succ, hstep, emit_txOut, hout, hnum, hnumber]⟩

end Sys2Proof.Machine
end

section
/-! SUPPORT and RESULTS. The invariants of R42 (spec/10_state.md section 13): after reset, and under every move of every
agent. -/

namespace Sys2Proof.Machine

/-! ### The receiver's share of the invariants -/

/-- The items of `Legal` about the frame decoder and the de-stuffer. -/
structure RxLegal (s : State) : Prop where
  header : s.fsm = .rh → s.pcount = 0 ∧ s.dcount = 0 ∧ s.acc = []
  parameters : s.fsm = .rp → s.matchCount = 0 ∧ s.dcount = 0 ∧ s.acc = []
  data : s.fsm = .rd → s.matchCount = 0 ∧ s.pcount = 0 ∧ 1 ≤ s.hdrLen.toNat ∧ s.dcount.toNat < s.hdrLen.toNat ∧
    s.acc.length = (if s.hdrOp = s.params.opData then 0 else s.dcount.toNat)
  control : s.fsm = .rd → s.hdrOp ≠ s.params.opData → s.ds = .normal

theorem Legal.rx {s : State} (h : Legal s) : RxLegal s := ⟨h.header, h.parameters, h.data, h.control⟩

/-- Clear counters and an empty accumulator suffice in ReadingHeader. -/
theorem RxLegal.of_rh {s : State} (hf : s.fsm = .rh) (hp : s.pcount = 0) (hd : s.dcount = 0) (ha : s.acc = []) :
    RxLegal s := by
  constructor <;> simp [hf, hp, hd, ha]

/-- They suffice, with a clear match count, in ReadingParameters. -/
theorem RxLegal.of_rp {s : State} (hf : s.fsm = .rp) (hm : s.matchCount = 0) (hd : s.dcount = 0) (ha : s.acc = []) :
    RxLegal s := by
  constructor <;> simp [hf, hm, hd, ha]

/-- A payload byte taken in, of which the accumulator has as many as there are with it if it is of a control packet: the packet
goes on with one more, or completes with everything clear (R131 to R136). -/
theorem payloadByte_rxLegal {u : State} (outs : List Byte) (hf : u.fsm = .rd) (hm : u.matchCount = 0) (hp : u.pcount = 0)
    (hlt : u.dcount.toNat < u.hdrLen.toNat)
    (hacc : u.acc.length = if u.hdrOp = u.params.opData then 0 else u.dcount.toNat + 1)
    (hds : u.hdrOp ≠ u.params.opData → u.ds = .normal) : RxLegal (payloadByte u outs).st := by
  have hnext : (u.dcount + 1).toNat = u.dcount.toNat + 1 := by
    have hlen := u.hdrLen.isLt
    rw [BitVec.toNat_add, show (1 : Word).toNat = 1 from rfl]
    omega
  by_cases hlast : u.dcount + 1 = u.hdrLen
  · rw [payloadByte_last hlast]
    refine .of_rh rfl ?_ rfl ?_
    · simpa [complete] using hp
    · by_cases ho : u.hdrOp = u.params.opData
      · simpa [complete, State.inData, ho] using hacc
      · simp [complete, State.inData, ho]
  · have hmore : u.dcount.toNat + 1 ≠ u.hdrLen.toNat := fun heq => hlast (BitVec.eq_of_toNat_eq (hnext.trans heq))
    rw [payloadByte_more hlast]
    constructor
    case header => exact fun h => absurd (hf.symm.trans h) (by decide)
    case parameters => exact fun h => absurd (hf.symm.trans h) (by decide)
    case data =>
      refine fun _ => ⟨hm, hp, by simp only; omega, by simp only [hnext]; omega, ?_⟩
      show u.acc.length = if u.hdrOp = u.params.opData then 0 else (u.dcount + 1).toNat
      rw [hnext, hacc]
    case control => exact fun _ => hds

theorem rxByte_rxLegal {s : State} (h : RxLegal s) (b : Byte) : RxLegal (rxByte s b).st := by
  rcases rxByte_cases s b with ⟨hf, -, -, hrow⟩ | ⟨hf, -, -, hrow⟩ | ⟨hf, -, hrow⟩ | ⟨hf, -, hrow⟩ | ⟨hf, -, -, hrow⟩ |
      ⟨hf, -, hne, hrow⟩ | ⟨hf, ho, hrow⟩ | ⟨hf, ho, hrow⟩ <;> rw [hrow]
  · obtain ⟨hp, hd, ha⟩ := h.header hf
    exact .of_rh hf hp hd ha
  · obtain ⟨-, hd, ha⟩ := h.header hf
    exact .of_rp rfl rfl hd ha
  · obtain ⟨hp, hd, ha⟩ := h.header hf
    exact .of_rh hf hp hd ha
  · obtain ⟨hm, hd, ha⟩ := h.parameters hf
    exact .of_rp hf hm hd ha
  · obtain ⟨-, hd, ha⟩ := h.parameters hf
    exact .of_rh rfl rfl (by simpa [rxEmpty] using hd) (by simpa [rxEmpty] using ha)
  · obtain ⟨hm, -, -⟩ := h.parameters hf
    have hlen : 0 < (be16 s.pbuf[5] b).toNat := Nat.pos_of_ne_zero fun h0 => hne (BitVec.eq_of_toNat_eq h0)
    constructor <;> simp [rxEnterData, hm, hlen]
    exact hlen
  · obtain ⟨hm, hp, -, hlt, hacc⟩ := h.data hf
    rw [if_pos ho] at hacc
    exact payloadByte_rxLegal _ hf hm hp hlt (by simpa [ho] using hacc) fun hne => absurd ho hne
  · obtain ⟨hm, hp, -, hlt, hacc⟩ := h.data hf
    rw [if_neg ho] at hacc
    exact payloadByte_rxLegal _ hf hm hp hlt (by simp [ho, hacc]) (h.control hf)

/-! ### Each agent's moves -/

/-- Anomalies that grow leave the reserved bits clear (R37). -/
theorem AnomGrows.reserved {s t : State} (hst : AnomGrows s t) (h : s.anom &&& 0xC0 = 0) : t.anom &&& 0xC0 = 0 := by
  obtain ⟨m, hm, ht⟩ := hst
  rw [ht]
  exact or_and_reserved h hm

/-- What a step pushes fits where it pushes to (R120). -/
theorem commit_queues_fit {s : State} {r : RxOut} (h : Legal s) (hf : r.fitsIn s = true) :
    (commit s r).dataOut.length ≤ s.params.dataqDepth ∧ (commit s r).crq.length ≤ s.params.crqDepth ∧
    (commit s r).ackq.length ≤ s.params.ackqDepth := by
  obtain ⟨houts, hack, hctrl⟩ := (fitsIn_iff r s).mp hf
  rw [commit_dataOut, commit_crq, commit_ackq, List.length_append, List.length_append, List.length_append]
  refine ⟨?_, ?_, ?_⟩
  · by_cases hne : r.outs = []
    · simpa [hne] using h.dataqBound
    · exact houts hne
  · cases hr : r.ctrl with
    | none => simpa using h.crqBound
    | some c => exact hctrl (by simp [hr])
  · cases hr : r.ack with
    | none => simpa using h.ackqBound
    | some a => exact hack (by simp [hr])

theorem RxMoves.legal {s t : State} (hm : RxMoves s t) (h : Legal s) : Legal t := by
  have hk := hm.keeps
  have hrx : RxLegal t ∧ t.dataOut.length ≤ s.params.dataqDepth ∧ t.crq.length ≤ s.params.crqDepth ∧
      t.ackq.length ≤ s.params.ackqDepth := by
    rcases hm with rfl | ⟨b, rest, -, hf, rfl⟩ | ⟨-, -, rfl⟩
    · exact ⟨h.rx, h.dataqBound, h.crqBound, h.ackqBound⟩
    · have hst := rxByte_rxLegal h.rx b
      exact ⟨⟨hst.header, hst.parameters, hst.data, hst.control⟩, commit_queues_fit h hf⟩
    · exact ⟨⟨h.header, h.parameters, h.data, h.control⟩, h.dataqBound, h.crqBound, h.ackqBound⟩
  obtain ⟨⟨header, parameters, data, control⟩, hdataq, hcrq, hackq⟩ := hrx
  exact {
    params := hk.params ▸ h.params
    header, parameters, data, control
    sequence := hk.txSeq ▸ h.sequence
    dataqBound := hk.params ▸ hdataq
    crqBound := hk.params ▸ hcrq
    ackqBound := hk.params ▸ hackq
    txqBound := hk.params ▸ hk.txq ▸ h.txqBound
    bodies := hk.params ▸ hk.cur ▸ h.bodies
    reserved := hk.anom.reserved h.reserved }

/-- The bodies left of a command are some of its bodies. -/
theorem afterFirst_bodies {op dest : Byte} {chunks : Chunks} {c : Current} (hc : afterFirst op dest chunks = some c)
    {body : List Byte} (hb : body ∈ c.chunks.toList) : body ∈ chunks.toList := by
  obtain ⟨first, rest⟩ := chunks
  cases rest with
  | nil => simp [afterFirst] at hc
  | cons d ds =>
    obtain rfl := Option.some.inj hc
    exact List.mem_cons_of_mem _ hb

theorem TxMoves.bodies_fit {s t : State} (hm : TxMoves s t) (h : Legal s) :
    ∀ c, t.cur = some c → ∀ body ∈ c.chunks.toList, body.length ≤ s.params.maxPayload := by
  rcases hm with rfl | ⟨-, e, hp, rfl⟩
  · exact h.bodies
  · rcases txPick_cases hp with ⟨r, rs, -, rfl⟩ | ⟨-, cur, hcur, rfl⟩ | ⟨-, -, q, qs, -, rfl⟩
    · exact h.bodies
    · exact fun c hc body hb => h.bodies cur hcur body (afterFirst_bodies hc hb)
    · exact fun c hc body hb => packetize_fits h.params q.op q.payload body (afterFirst_bodies hc hb)

theorem TxMoves.sequence {s t : State} (hm : TxMoves s t) (h : s.txSeq.toNat ≤ 0xFFFE) : t.txSeq.toNat ≤ 0xFFFE := by
  rcases hm with rfl | ⟨-, e, hp, rfl⟩
  · exact h
  · obtain ⟨-, hseq, -⟩ := txPick_st hp
    rw [emit_txSeq, hseq, nextseq_toNat h]
    omega

theorem TxMoves.legal {s t : State} (hm : TxMoves s t) (h : Legal s) : Legal t := by
  have hbodies := hm.bodies_fit h
  have hseq := hm.sequence h.sequence
  obtain ⟨ht, hackq, htxq, -⟩ := hm.frame
  have hackqBound := hackq.length_le.trans h.ackqBound
  have htxqBound := htxq.length_le.trans h.txqBound
  rw [ht]
  exact ⟨h.params, h.header, h.parameters, h.data, h.control, hseq, h.dataqBound, h.crqBound, hackqBound, htxqBound, hbodies,
    h.reserved⟩

/-- R240: a SEND is queued only where there is room. -/
theorem HostUpdate.txqBound {s u : State} (hu : HostUpdate s u) (h : s.txq.length ≤ s.params.txqDepth) :
    u.txq.length ≤ s.params.txqDepth := by
  rcases hu with ⟨q, -, hroom, rfl⟩ | ⟨-, rfl⟩ | rfl | ⟨v, rfl⟩ | ⟨mask, rfl⟩ | ⟨b, bs, -, rfl⟩ | ⟨r, rs, -, rfl⟩ | rfl | rfl
  · simpa using hroom
  all_goals exact h

theorem exec_host_legal {i : Instr} {s t : State} (hi : ofHost i = true) (he : exec i s = .next t) (h : Legal s) :
    Legal t := by
  have hf := exec_hostFrame hi he
  have hdataq := hf.dataOut.length_le.trans h.dataqBound
  have hcrq := hf.crq.length_le.trans h.crqBound
  have htxq : t.txq.length ≤ s.params.txqDepth := by
    rcases exec_host_moves hi he with rfl | ⟨u, code, value, hu, rfl⟩
    · exact h.txqBound
    · exact hu.txqBound h.txqBound
  have hreserved : t.anom &&& 0xC0 = 0 := by
    rcases hf.anom with hgrow | ⟨mask, -, ht⟩
    · exact hgrow.reserved h.reserved
    · rw [ht, BitVec.and_assoc, BitVec.and_comm _ (0xC0 : Byte), ← BitVec.and_assoc, h.reserved]
      exact BitVec.zero_and
  rw [hf.only]
  exact ⟨h.params, h.header, h.parameters, h.data, h.control, h.sequence, hdataq, hcrq, h.ackqBound, htxq, h.bodies, hreserved⟩

/-- No item of `Legal` names `rx_in`; nor `cmd_in` or the agenda, below. -/
theorem Legal.deliver {s : State} (h : Legal s) (items : List RxItem) : Legal (s.deliver items) :=
  ⟨h.params, h.header, h.parameters, h.data, h.control, h.sequence, h.dataqBound, h.crqBound, h.ackqBound, h.txqBound,
    h.bodies, h.reserved⟩

theorem Legal.issue {s : State} (h : Legal s) (c : HostCommand) : Legal (s.issue c) :=
  ⟨h.params, h.header, h.parameters, h.data, h.control, h.sequence, h.dataqBound, h.crqBound, h.ackqBound, h.txqBound,
    h.bodies, h.reserved⟩

theorem Legal.setAgenda {s : State} (h : Legal s) (ts : List Turn) : Legal { s with agenda := ts } :=
  ⟨h.params, h.header, h.parameters, h.data, h.control, h.sequence, h.dataqBound, h.crqBound, h.ackqBound, h.txqBound,
    h.bodies, h.reserved⟩

theorem Legal.rxLine {s : State} (h : Legal s) (bytes : List Byte) : Legal (rxLine s bytes) :=
  rxLine_induct (P := Legal) (fun _ items h => h.deliver items) (fun _ _ h hm => hm.legal h) bytes h

theorem afterLinkErr_legal {s : State} (h : Legal s) : Legal (afterLinkErr s) :=
  ⟨h.params, h.header, h.parameters, h.data, h.control, h.sequence, h.dataqBound, h.crqBound, Nat.zero_le _, Nat.zero_le _,
    fun _ hc => absurd hc (by simp [afterLinkErr]), (AnomGrows.of_flag (s := s) .link rfl).reserved h.reserved⟩

/-- RESET meets the invariants whatever the state was, if the parameters are legal (R43). -/
theorem afterReset_legal {s : State} (hp : s.params.valid) : Legal (afterReset s) := by
  have hrx : RxLegal (afterReset s) := .of_rh rfl rfl rfl rfl
  have hseq : s.params.seqInit.toNat ≤ 0xFFFE := by
    obtain ⟨-, -, -, -, -, hseq, -⟩ := hp
    exact hseq
  exact ⟨hp, hrx.header, hrx.parameters, hrx.data, hrx.control, hseq, Nat.zero_le _, Nat.zero_le _, Nat.zero_le _,
    Nat.zero_le _, fun _ hc => absurd hc (by simp [afterReset, State.reset]), by simp [afterReset, State.reset]⟩

theorem exec_legal {i : Instr} {s t : State} (he : exec i s = .next t) (h : Legal s) : Legal t := by
  rcases row_cases i with hi | hi | hi | hi | rfl | rfl
  · exact (exec_rx_moves hi he).legal h
  · exact (exec_tx_moves hi he).legal h
  · exact exec_host_legal hi he h
  · obtain ⟨bytes, rfl⟩ := exec_wire hi he
    exact h.rxLine bytes
  · obtain rfl := Host.Outcome.next.inj he
    exact afterLinkErr_legal (s := s) h
  · obtain rfl := Host.Outcome.next.inj he
    exact afterReset_legal h.params

/-! ### The statements -/

/-- Settles O53: each agent's moves keep the invariants, and so do the inputs that land. -/
theorem stepKeepsInvariants : Obligations.StepKeepsInvariants := by
  unfold Obligations.StepKeepsInvariants
  intro s t hs ht
  have hturn := hs.setAgenda s.agenda.tail
  rcases step_cases s with ⟨-, h⟩ | ⟨i, h⟩ | h | ⟨items, h⟩ | ⟨c, h⟩ | ⟨bytes, h⟩ <;> rw [h] at ht
  · exact Host.Outcome.next.inj ht ▸ hs
  · exact exec_legal ht hturn
  · exact Host.Outcome.next.inj ht ▸ hturn
  · exact Host.Outcome.next.inj ht ▸ hturn.deliver items
  · exact Host.Outcome.next.inj ht ▸ hturn.issue c
  · exact Host.Outcome.next.inj ht ▸ hturn.rxLine bytes

/-- Settles O52: RESET in the reset state leaves it, and what RESET leaves is legal. -/
theorem resetMeetsInvariants : Obligations.ResetMeetsInvariants := by
  unfold Obligations.ResetMeetsInvariants
  exact afterReset_legal (s := State.reset) Config.params_valid

end Sys2Proof.Machine
end

section
/-! SUPPORT and RESULTS. The agenda's turns (spec/20_memory.md R65), RESET, and SEND (44_host_ops.md R240, R241). -/

namespace Sys2Proof.Machine

/-- Settles O4: each turn's row, by the code at its port. -/
theorem stepRunsDecodedInstruction : Obligations.StepRunsDecodedInstruction := by
  unfold Obligations.StepRunsDecodedInstruction
  refine ⟨fun s ts it rest i ha hr hi => ?rxEngine, fun s ts c rest i ha hc hi => ?host, fun s ts bytes i ha hi => ?rxLine,
    fun s ts ha => step_of_run ha rfl, fun s ts ha => step_of_run ha rfl, fun s ts ha => step_of_run ha rfl⟩
  case rxEngine =>
    obtain rfl := Except.ok.inj hi
    exact step_of_run ha (by simp only [fetchTurn, hr])
  case host =>
    obtain rfl := Except.ok.inj hi
    exact step_of_run ha (by simp only [fetchTurn, hc])
  case rxLine =>
    have hd : decodePacket s.params .received bytes = .ok i := hi
    exact step_of_run ha (by simp only [fetchTurn, fetchLine, hd])

/-- Settles O5: each input's turn, and each turn with nothing at its port. -/
theorem stepLandsInputs : Obligations.StepLandsInputs := by
  unfold Obligations.StepLandsInputs
  refine ⟨fun s ha => ?empty, fun s ts items ha => step_of_land ha rfl, fun s ts c ha => step_of_land ha rfl,
    fun s ts ha hr => step_of_land ha (by simp only [fetchTurn, hr]),
    fun s ts ha hc => step_of_land ha (by simp only [fetchTurn, hc]), fun s ts bytes e ha he => ?rxLine⟩
  case empty => rw [step, fetch, ha]
  case rxLine =>
    have hd : decodePacket s.params .received bytes = .error e := he
    exact step_of_land ha (by simp only [fetchTurn, fetchLine, hd])

/-- Settles O50: RESET's equation, field by field. -/
theorem resetRestoresEveryField : Obligations.ResetRestoresEveryField := by
  unfold Obligations.ResetRestoresEveryField
  exact exec_reset

/-- Settles O43: the three cases of SEND. -/
theorem sendIsQueuedHeldOrTurnedAway : Obligations.SendIsQueuedHeldOrTurnedAway := by
  unfold Obligations.SendIsQueuedHeldOrTurnedAway
  intro s op dest payload rest h
  refine ⟨fun hl hq => ?queued, fun hl hq => exec_cmdSend_held op dest payload hl hq, fun hl => ?notOpen⟩
  case queued => exact exec_completes h (exec_cmdSend_queued op dest payload hl hq) rfl rfl
  case notOpen => exact exec_completes h (exec_cmdSend_notOpen op dest payload hl) rfl rfl

end Sys2Proof.Machine
end

section
/-! SUPPORT and RESULTS. The RX engine over byte strings: what a step does not look at, how a line divides into reads
(spec/20_memory.md R71), and the line as its turns (30_encoding.md R94). -/

namespace Sys2Proof.Machine

/-! ### What a step does not look at -/

/-- The receiver's outcome with other items behind and other turns to come. -/
def RxOut.setPorts (r : RxOut) (items : List RxItem) (ts : List Turn) : RxOut :=
  { r with st := { r.st with rxIn := items, agenda := ts } }

theorem payloadByte_setPorts (s : State) (outs : List Byte) (items : List RxItem) (ts : List Turn) :
    payloadByte { s with rxIn := items, agenda := ts } outs = (payloadByte s outs).setPorts items ts := by
  by_cases h : s.dcount + 1 = s.hdrLen
  · rw [payloadByte_last h, payloadByte_last (by exact h), complete, complete, State.flagIf_eq, State.flagIf_eq]
    rfl
  · rw [payloadByte_more h, payloadByte_more (by exact h)]
    rfl

/-- `rx_byte` looks neither at `rx_in` nor at the agenda, and keeps both. -/
theorem rxByte_setPorts (s : State) (b : Byte) (items : List RxItem) (ts : List Turn) :
    rxByte { s with rxIn := items, agenda := ts } b = (rxByte s b).setPorts items ts := by
  rcases rxByte_cases s b with ⟨hf, hb, hm, hrow⟩ | ⟨hf, hb, hm, hrow⟩ | ⟨hf, hb, hrow⟩ | ⟨hf, hp, hrow⟩ |
      ⟨hf, hp, h0, hrow⟩ | ⟨hf, hp, h0, hrow⟩ | ⟨hf, ho, hrow⟩ | ⟨hf, ho, hrow⟩ <;> rw [hrow]
  · subst hb
    exact rxByte_rh_mark hf hm
  · subst hb
    exact rxByte_rh_mark3 hf hm
  · exact rxByte_rh_other hf hb
  · exact rxByte_rp_byte hf hp
  · rw [rxByte_rp_last (by exact hf) (by exact hp), rxLast, if_pos (by exact h0), rxEmpty, rxEmpty, latchHeader_eq,
      latchHeader_eq]
    rfl
  · rw [rxByte_rp_last (by exact hf) (by exact hp), rxLast, if_neg (by exact h0), rxEnterData, rxEnterData, latchHeader_eq,
      latchHeader_eq]
    rfl
  · rw [rxByte_rd_data (by exact hf) (by exact ho)]
    exact payloadByte_setPorts { s with ds := (destuff s.params.litSentinel s.ds b).1 } _ items ts
  · rw [rxByte_rd_ctrl (by exact hf) (by exact ho)]
    exact payloadByte_setPorts { s with acc := s.acc ++ [b] } _ items ts

/-- The state with more items behind those of `rx_in`, and other turns to come. -/
def State.morePorts (s : State) (more : List RxItem) (ts : List Turn) : State :=
  { s with rxIn := s.rxIn ++ more, agenda := ts }

/-- A step on a byte is the same step, whatever stands behind it and whoever moves next. -/
theorem consume_morePorts {s : State} {b : Byte} {rest : List RxItem} (hin : s.rxIn = .byte b :: rest) (more : List RxItem)
    (ts : List Turn) :
    consume (s.morePorts more ts) b (rxByte (s.morePorts more ts) b) = (consume s b (rxByte s b)).morePorts more ts := by
  have hrow : rxByte (s.morePorts more ts) b = (rxByte s b).setPorts (s.rxIn ++ more) ts := rxByte_setPorts s b _ ts
  have hfits : (rxByte (s.morePorts more ts) b).fitsIn (s.morePorts more ts) = (rxByte s b).fitsIn s := by
    rw [hrow]
    rfl
  have hin' : (s.morePorts more ts).rxIn = .byte b :: (rest ++ more) := congrArg (· ++ more) hin
  by_cases hl : s.rxLive = true
  · by_cases hf : (rxByte s b).fitsIn s = true
    · rw [consume_enabled ⟨hl, hin⟩ hf, consume_enabled (s := s.morePorts more ts) ⟨hl, hin'⟩ (hfits.trans hf), commit,
        commit, hin', hin, hrow]
      rfl
    · have hheld : (rxByte s b).fitsIn s = false := by simpa using hf
      rw [consume_held (hfits.trans hheld), consume_held hheld]
  · have hstopped : s.rxLive = false := by simpa using hl
    rw [consume_stopped (s := s.morePorts more ts) hstopped, consume_stopped hstopped]

theorem rxEof_morePorts {s : State} {rest : List RxItem} (hin : s.rxIn = .eof :: rest) (more : List RxItem)
    (ts : List Turn) : rxEof (s.morePorts more ts) = (rxEof s).morePorts more ts := by
  have hin' : (s.morePorts more ts).rxIn = .eof :: (rest ++ more) := congrArg (· ++ more) hin
  by_cases hl : s.rxLive = true
  · rw [rxEof_enabled (s := s.morePorts more ts) hl hin', rxEof_enabled hl hin]
    rfl
  · rw [(rxEof_moves s).eq_of_stopped (by simpa using hl),
      (rxEof_moves (s.morePorts more ts)).eq_of_stopped (by simpa [State.morePorts] using hl)]

/-- A step of the RX engine is the same step with more items behind, where there is one for it, and with other turns to come. -/
theorem rxTurn_morePorts {s : State} {more : List RxItem} (h : s.rxIn ≠ [] ∨ more = []) (ts : List Turn) :
    rxTurn (s.morePorts more ts) = (rxTurn s).morePorts more ts := by
  cases hin : s.rxIn with
  | nil =>
    obtain rfl := h.resolve_left (absurd hin)
    simp [rxTurn, State.morePorts, hin]
  | cons it rest =>
    have hin' : (s.morePorts more ts).rxIn = it :: (rest ++ more) := congrArg (· ++ more) hin
    cases it with
    | byte b =>
      have hturn : rxTurn s = consume s b (rxByte s b) := by simp only [rxTurn, hin]
      rw [hturn, ← consume_morePorts hin]
      simp only [rxTurn, hin']
    | eof =>
      have hturn : rxTurn s = rxEof s := by simp only [rxTurn, hin]
      rw [hturn, ← rxEof_morePorts hin]
      simp only [rxTurn, hin']

/-- A step takes at most one item. -/
theorem rxTurn_rxIn_length (s : State) : s.rxIn.length ≤ (rxTurn s).rxIn.length + 1 := by
  rcases rxTurn_moves s with h | ⟨b, rest, -, -, h⟩ | ⟨-, -, h⟩ <;> rw [h]
  · omega
  · simp only [commit_rxIn, List.length_tail]
    omega
  · simp only [afterEof, List.length_tail]
    omega

/-! ### Reads -/

/-- Steps on items that are there do not see those that arrive behind them. -/
theorem rxTurns_deliver {n : Nat} {s : State} (h : n ≤ s.rxIn.length) (more : List RxItem) :
    rxTurns n (s.deliver more) = (rxTurns n s).deliver more := by
  induction n generalizing s with
  | zero => rfl
  | succ n ih =>
    have hne : s.rxIn ≠ [] := List.ne_nil_of_length_pos (by omega)
    have hturn : rxTurn (s.deliver more) = (rxTurn s).deliver more := by
      have hagenda : (rxTurn s).agenda = s.agenda := (rxTurn_moves s).keeps.agenda
      calc rxTurn (s.deliver more) = (rxTurn s).morePorts more s.agenda := rxTurn_morePorts (.inl hne) s.agenda
        _ = (rxTurn s).deliver more := by rw [State.morePorts, ← hagenda]; rfl
    have hlen := rxTurn_rxIn_length s
    rw [rxTurns, rxTurns, hturn, ih (by omega)]

theorem rxTurns_add (m n : Nat) (s : State) : rxTurns (m + n) s = rxTurns n (rxTurns m s) := by
  induction m generalizing s with
  | zero => rw [Nat.zero_add]; rfl
  | succ m ih => rw [Nat.succ_add]; exact ih (rxTurn s)

/-- Two reads one after the other are one read (R71). -/
theorem rxLine_append (s : State) (xs ys : List Byte) : rxLine s (xs ++ ys) = rxLine (rxLine s xs) ys := by
  have hsplit : s.deliver ((xs ++ ys).map .byte) = (s.deliver (xs.map .byte)).deliver (ys.map .byte) := by
    simp [State.deliver]
  have hlen : xs.length ≤ (s.deliver (xs.map .byte)).rxIn.length := by simp
  rw [rxLine, rxLine, rxLine, List.length_append, rxTurns_add, hsplit, rxTurns_deliver hlen]

@[simp] theorem rxLine_nil (s : State) : rxLine s [] = s := by
  simp [rxLine, rxTurns, State.deliver]

theorem rxLine_cons (s : State) (b : Byte) (bs : List Byte) : rxLine s (b :: bs) = rxLine (rxLine s [b]) bs :=
  rxLine_append s [b] bs

/-- Settles O27: read by read. -/
theorem splitReadsAgree : Obligations.SplitReadsAgree := by
  unfold Obligations.SplitReadsAgree
  intro s reads
  induction reads generalizing s with
  | nil => exact (rxLine_nil s).symm
  | cons r rs ih => rw [List.foldl_cons, ih, List.flatten_cons, rxLine_append]

/-! ### The line as its turns -/

/-- The RX engine's turn is its step, with nothing at its port too. -/
theorem step_rxEngine {s : State} {ts : List Turn} (ha : s.agenda = .rxEngine :: ts) :
    step s = .next (rxTurn { s with agenda := ts }) := by
  cases hin : s.rxIn with
  | nil =>
    rw [step_of_land ha (t := { s with agenda := ts }) (by simp only [fetchTurn, hin])]
    simp only [rxTurn, hin]
  | cons it rest =>
    rw [step_of_run ha (t := { s with agenda := ts }) (i := decodeItem it.code) (by simp only [fetchTurn, hin])]
    cases it with
    | byte b =>
      rw [decodeItem_byte]
      simp only [exec, execRxiByte, rxTurn, hin]
    | eof =>
      rw [decodeItem_eof]
      simp only [exec, execRxiEof, rxTurn, hin]

theorem run_succ {s t : State} (h : step s = .next t) (k : Nat) :
    Sys2Proof.core.run (k + 1) s = Sys2Proof.core.run k t := by
  have hcore : Sys2Proof.core.step s = .next t := h
  simp only [Host.Core.run, hcore]

theorem run_rxEngine (n : Nat) (s : State) (ha : s.agenda = []) :
    Sys2Proof.core.run n { s with agenda := List.replicate n .rxEngine } = .next (rxTurns n s) := by
  induction n generalizing s with
  | zero =>
    have hs : { s with agenda := List.replicate 0 .rxEngine } = s := by rw [List.replicate_zero, ← ha]
    rw [hs]
    rfl
  | succ n ih =>
    have hstep : step { s with agenda := List.replicate (n + 1) .rxEngine } =
        .next (rxTurn { s with agenda := List.replicate n .rxEngine }) := step_rxEngine rfl
    have hturn : rxTurn { s with agenda := List.replicate n .rxEngine } =
        { rxTurn s with agenda := List.replicate n .rxEngine } := by
      have h := rxTurn_morePorts (s := s) (.inr rfl) (List.replicate n .rxEngine)
      simpa only [State.morePorts, List.append_nil] using h
    rw [run_succ hstep, hturn]
    exact ih (rxTurn s) ((rxTurn_moves s).keeps.agenda.trans ha)

/-- Settles O28: the delivery, then a turn for each byte. -/
theorem rxLineIsItsSteps : Obligations.RxLineIsItsSteps := by
  unfold Obligations.RxLineIsItsSteps
  intro s bytes
  have hdeliver : step { s with agenda := .deliver (bytes.map .byte) :: List.replicate bytes.length .rxEngine } =
      .next (State.deliver { s with agenda := List.replicate bytes.length .rxEngine } (bytes.map .byte)) :=
    step_of_land (ts := List.replicate bytes.length .rxEngine) rfl rfl
  rw [run_succ hdeliver]
  exact run_rxEngine bytes.length (State.deliver { s with agenda := [] } (bytes.map .byte)) rfl

end Sys2Proof.Machine
end

section
/-! SUPPORT and RESULTS. Whole packets received, and garbage between them (spec/40_decoder.md sections 2 to 7): the line byte by
byte, the parameter block, the payload, then the packets. -/

namespace Sys2Proof.Machine

/-! ### A byte on a line -/

/-- The reader runs and has nothing left to read. -/
def Listening (s : State) : Prop := s.rxLive = true ∧ s.rxIn = []

theorem Waiting.listening {s : State} (h : Waiting s) : Listening s := ⟨h.1, h.2.1⟩

/-- With nothing else to read, a byte on a line is RXI_BYTE on it. -/
theorem rxLine_byte {s t : State} {b : Byte} (hs : Listening s)
    (h : exec (.rxiByte b) { s with rxIn := [.byte b] } = .next t) : rxLine s [b] = t := by
  have harrive : s.deliver [.byte b] = { s with rxIn := [.byte b] } := by rw [State.deliver, hs.2, List.nil_append]
  have hturn : rxLine s [b] = rxTurn (s.deliver [.byte b]) := rfl
  rw [hturn, harrive]
  exact Host.Outcome.next.inj h

theorem rxLine_rh_mark {s : State} (hs : Listening s) (hf : s.fsm = .rh) (hm : s.matchCount.val < 2) :
    rxLine s [Config.marker] = { s with matchCount := s.matchCount + 1 } := by
  obtain ⟨hmark, -, -⟩ :=
    headerScanCountsMarkers { s with rxIn := [.byte Config.marker] } Config.marker [] ⟨hs.1, rfl⟩ hf
  rw [rxLine_byte hs (hmark rfl hm).2, hs.2]

theorem rxLine_rh_mark3 {s : State} (hs : Listening s) (hf : s.fsm = .rh) (hm : s.matchCount = 2) :
    rxLine s [Config.marker] = { s with matchCount := 0, pcount := 0, fsm := .rp } := by
  obtain ⟨-, hmark3, -⟩ :=
    headerScanCountsMarkers { s with rxIn := [.byte Config.marker] } Config.marker [] ⟨hs.1, rfl⟩ hf
  rw [rxLine_byte hs (hmark3 rfl hm).2, hs.2]

theorem rxLine_rh_other {s : State} {b : Byte} (hs : Listening s) (hf : s.fsm = .rh) (hb : b ≠ Config.marker) :
    rxLine s [b] = { s with matchCount := 0 } := by
  obtain ⟨-, -, hother⟩ := headerScanCountsMarkers { s with rxIn := [.byte b] } b [] ⟨hs.1, rfl⟩ hf
  rw [rxLine_byte hs (hother hb).2, hs.2]

theorem rxLine_rp_byte {s : State} (hs : Listening s) (hf : s.fsm = .rp) (h : s.pcount.val < 6) (b : Byte) :
    rxLine s [b] = { s with pbuf := s.pbuf.set s.pcount.val b h, pcount := s.pcount + 1 } := by
  obtain ⟨-, hbyte⟩ := parameterByteIsStored { s with rxIn := [.byte b] } b [] h ⟨hs.1, rfl⟩ hf
  rw [rxLine_byte hs hbyte, hs.2]

/-! ### Garbage -/

/-- Garbage behind up to two markers already matched: three in a row are never reached, and a byte other than the marker, which
ends it, clears the count (R122, R124). -/
theorem rxLine_garbage {s : State} (hs : Waiting s) (m : Fin 3) (g : List Byte)
    (hrun : ∀ pre post, List.replicate m.val Config.marker ++ g ≠
      pre ++ [Config.marker, Config.marker, Config.marker] ++ post)
    (hlast : (List.replicate m.val Config.marker ++ g).getLast? ≠ some Config.marker) :
    rxLine { s with matchCount := m } g = s := by
  have hlisten (k : Fin 3) : Listening { s with matchCount := k } := hs.listening
  obtain ⟨-, -, hf, hm0⟩ := hs
  induction g generalizing m with
  | nil =>
    have hm : m = 0 := by
      by_contra hne
      refine hlast ?_
      have hpos : m.val ≠ 0 := fun h0 => hne (Fin.ext h0)
      rw [List.append_nil, List.getLast?_replicate, if_neg hpos]
    rw [rxLine_nil, hm, ← hm0]
  | cons b bs ih =>
    rw [rxLine_cons]
    by_cases hb : b = Config.marker
    · subst hb
      have hm : m.val < 2 := by
        by_contra hfull
        have h2 : m.val = 2 := by omega
        exact hrun [] bs (by rw [h2]; rfl)
      have hnext : (m + 1).val = m.val + 1 := by
        rw [Fin.val_add_one_of_lt (Fin.lt_def.mpr hm)]
      have hsplit : List.replicate m.val Config.marker ++ Config.marker :: bs =
          List.replicate (m + 1).val Config.marker ++ bs := by
        rw [hnext, List.replicate_succ', List.append_assoc, List.singleton_append]
      rw [hsplit] at hrun hlast
      rw [rxLine_rh_mark (hlisten m) hf hm]
      exact ih (m + 1) hrun hlast
    · rw [rxLine_rh_other (hlisten m) hf hb]
      refine ih 0 (fun pre post heq => ?_) fun hend => ?_
      · refine hrun (List.replicate m.val Config.marker ++ b :: pre) post ?_
        have heq' : bs = pre ++ [Config.marker, Config.marker, Config.marker] ++ post := heq
        rw [heq']
        simp
      · have hend' : bs.getLast? = some Config.marker := hend
        refine hlast ?_
        cases bs with
        | nil => simp at hend'
        | cons c cs => rwa [List.getLast?_append_cons, List.getLast?_cons_cons]

/-- Settles O29: nothing is matched yet. -/
theorem cleanGarbageLeavesNoTrace : Obligations.CleanGarbageLeavesNoTrace := by
  unfold Obligations.CleanGarbageLeavesNoTrace
  intro s g hs hrun hlast
  have ⟨_, _, _, hm⟩ := hs
  exact rxLine_garbage hs s.matchCount g (by rwa [hm]) (by rwa [hm])

/-! ### The parameter block -/

/-- The three markers (R122, R123). -/
theorem rxLine_markers {s : State} (hs : Waiting s) :
    rxLine s [Config.marker, Config.marker, Config.marker] = { s with fsm := .rp, matchCount := 0, pcount := 0 } := by
  have hl := hs.listening
  obtain ⟨-, -, hf, hm⟩ := hs
  rw [rxLine_cons, rxLine_rh_mark hl hf (by rw [hm]; decide), rxLine_cons, hm,
    rxLine_rh_mark (s := { s with matchCount := 0 + 1 }) hl hf (show ((0 : Fin 3) + 1).val < 2 by decide),
    rxLine_rh_mark3 (s := { s with matchCount := 0 + 1 + 1 }) hl hf rfl]

/-- A buffer written at every index. -/
theorem set_each (v : Vector Byte 6) (b0 b1 b2 b3 b4 b5 : Byte) :
    (((((v.set 0 b0).set 1 b1).set 2 b2).set 3 b3).set 4 b4).set 5 b5 = #v[b0, b1, b2, b3, b4, b5] := by
  ext i hi
  interval_cases i <;> simp

/-- In ReadingParameters with `k` bytes received and the buffer `v`. -/
def collecting (s : State) (k : Nat) (hk : k < 7) (v : Vector Byte 6) : State :=
  { s with fsm := .rp, pcount := ⟨k, hk⟩, pbuf := v }

theorem rxLine_collecting {s : State} (hs : Listening s) {k : Nat} (hk : k < 6) (v : Vector Byte 6) (b : Byte) :
    rxLine (collecting s k (by omega) v) [b] = collecting s (k + 1) (by omega) (v.set k b) := by
  have hnext : (⟨k, by omega⟩ : Fin 7) + 1 = ⟨k + 1, by omega⟩ := by
    apply Fin.ext
    rw [Fin.val_add_one_of_lt (Fin.lt_def.mpr hk)]
  rw [rxLine_rp_byte (s := collecting s k (by omega) v) hs rfl hk b]
  simp only [collecting, hnext]

/-- The first six parameter bytes, markers among them (R125). -/
theorem rxLine_params {s : State} (hs : Listening s) (hf : s.fsm = .rp) (hp : s.pcount = 0) (b0 b1 b2 b3 b4 b5 : Byte) :
    rxLine s [b0, b1, b2, b3, b4, b5] = { s with pbuf := #v[b0, b1, b2, b3, b4, b5], pcount := 6 } := by
  have hstart : s = collecting s 0 (by decide) s.pbuf := by rw [collecting, ← hf, show (⟨0, _⟩ : Fin 7) = 0 from rfl, ← hp]
  have hsix (v : Vector Byte 6) : collecting s 6 (by decide) v = { s with pbuf := v, pcount := 6 } := by
    rw [collecting, ← hf]
    rfl
  rw [← set_each s.pbuf, ← hsix, rxLine_cons, rxLine_cons _ b1, rxLine_cons _ b2, rxLine_cons _ b3, rxLine_cons _ b4]
  conv_lhs => rw [hstart]
  rw [rxLine_collecting hs (by decide), rxLine_collecting hs (by decide), rxLine_collecting hs (by decide),
    rxLine_collecting hs (by decide), rxLine_collecting hs (by decide), rxLine_collecting hs (by decide)]

/-- A parameter block of length `len` taken in from ReadingHeader: back there with length 0 (R127), else on to the payload with
its counters clear (R128). -/
def afterHeader (s : State) (rsv : Byte) (seq : Word) (op dest : Byte) (len : Word) : State :=
  { afterBlock s rsv seq op dest len with
    fsm := if len = 0 then .rh else .rd
    dcount := if len = 0 then s.dcount else 0
    acc := if len = 0 then s.acc else [] }

/-- The ten header bytes of a packet, with room for the markers withheld before it (R122 to R128). -/
theorem rxLine_header {s : State} (hs : Waiting s) (hroom : s.dataOut.length + (withheld s.ds).length ≤ s.params.dataqDepth)
    (rsv : Byte) (seq : Word) (op dest : Byte) (len : Word) :
    rxLine s [Config.marker, Config.marker, Config.marker, rsv, hi8 seq, lo8 seq, op, dest, hi8 len, lo8 len] =
      afterHeader s rsv seq op dest len := by
  have hl := hs.listening
  have hsplit : [Config.marker, Config.marker, Config.marker, rsv, hi8 seq, lo8 seq, op, dest, hi8 len, lo8 len] =
      [Config.marker, Config.marker, Config.marker] ++ ([rsv, hi8 seq, lo8 seq, op, dest, hi8 len] ++ [lo8 len]) := rfl
  rw [hsplit, rxLine_append, rxLine_append, rxLine_markers hs,
    rxLine_params (s := { s with fsm := .rp, matchCount := 0, pcount := 0 }) hl rfl rfl]
  obtain ⟨hlast, hbyte⟩ := seventhByteDecodesBlock
    { s with
      fsm := .rp, matchCount := 0, pcount := 6, pbuf := #v[rsv, hi8 seq, lo8 seq, op, dest, hi8 len]
      rxIn := [.byte (lo8 len)] } (lo8 len) [] ⟨hl.1, rfl⟩ rfl rfl hroom
  refine rxLine_byte (by exact hl) ((hbyte.trans hlast).trans (congrArg Host.Outcome.next ?_))
  by_cases hcatalog : op ∈ s.params.catalog <;> simp [afterHeader, afterBlock, hl.2, hcatalog]

theorem afterHeader_empty (s : State) (rsv : Byte) (seq : Word) (op dest : Byte) :
    afterHeader s rsv seq op dest 0 = afterBlock s rsv seq op dest 0 := rfl

/-- A whole packet is its header, then its payload. -/
theorem rxLine_wireBytes {s : State} (hs : Waiting s) (hroom : s.dataOut.length + (withheld s.ds).length ≤ s.params.dataqDepth)
    (rsv : Byte) (seq : Word) (op dest : Byte) (body : List Byte) :
    rxLine s (wireBytes rsv seq op dest body) =
      rxLine (afterHeader s rsv seq op dest (BitVec.ofNat 16 body.length)) body := by
  rw [wireBytes, rxLine_append, rxLine_header hs hroom]

/-- Settles O26: the header alone. -/
theorem emptyPacketIsLatched : Obligations.EmptyPacketIsLatched := by
  unfold Obligations.EmptyPacketIsLatched
  intro s rsv seq op dest hs hroom
  have hempty (o : Byte) : rxLine s (wireBytes rsv seq o dest []) = afterBlock s rsv seq o dest 0 := by
    rw [rxLine_wireBytes hs hroom, rxLine_nil]
    exact afterHeader_empty s rsv seq o dest
  exact ⟨congrArg Host.Outcome.next (hempty op), congrArg Host.Outcome.next (hempty s.params.opData)⟩

/-- Settles O30: the four markers and what follows are an empty packet, and the last two bytes are garbage. -/
theorem leadingMarkerMisframes : Obligations.LeadingMarkerMisframes := by
  unfold Obligations.LeadingMarkerMisframes
  intro s hs hroom
  have hsplit : ([0x1B, 0x1B, 0x1B, 0x1B, 0x00, 0x00, 0x07, s.params.opData, 0x00, 0x00, 0x01, 0x41] : List Byte) =
      wireBytes 0x1B 0x0000 0x07 s.params.opData [] ++ [0x01, 0x41] := rfl
  have hempty : rxLine s (wireBytes 0x1B 0x0000 0x07 s.params.opData []) =
      afterBlock s 0x1B 0x0000 0x07 s.params.opData 0 := by
    rw [rxLine_wireBytes hs hroom, rxLine_nil]
    exact afterHeader_empty ..
  have hwait : Waiting (afterBlock s 0x1B 0x0000 0x07 s.params.opData 0) := ⟨hs.1, hs.2.1, rfl, rfl⟩
  have hgarbage : rxLine (afterBlock s 0x1B 0x0000 0x07 s.params.opData 0) [0x01, 0x41] =
      afterBlock s 0x1B 0x0000 0x07 s.params.opData 0 := by
    refine cleanGarbageLeavesNoTrace _ _ hwait (fun pre post heq => ?_) (by decide)
    have hlen := congrArg List.length heq
    simp only [List.length_append, List.length_cons, List.length_nil] at hlen
    omega
  obtain ⟨-, -, hf, hm⟩ := hs
  rw [hsplit, rxLine_append, hempty, hgarbage, afterBlock, ← hf, ← hm]
  rfl

/-! ### The payload -/

/-- Counting a payload byte with `more` behind it: the packet completes exactly with the last. -/
theorem dcount_succ {dcount hdrLen : Word} {more : Nat} (h : dcount.toNat + (more + 1) = hdrLen.toNat) :
    (dcount + 1).toNat + more = hdrLen.toNat ∧ (dcount + 1 = hdrLen ↔ more = 0) := by
  have hlen := hdrLen.isLt
  have hnext : (dcount + 1).toNat = dcount.toNat + 1 := by
    rw [BitVec.toNat_add, show (1 : Word).toNat = 1 from rfl]
    omega
  refine ⟨by omega, fun heq => ?_, fun h0 => BitVec.eq_of_toNat_eq (by omega)⟩
  rw [heq] at hnext
  omega

/-- What is left of a control packet, with `ACK_ALL` false: the record with the payload whole (R132 to R136). -/
theorem rxLine_ctrlBody {s : State} {body : List Byte} (hs : Listening s) (hf : s.fsm = .rd)
    (ho : s.hdrOp ≠ s.params.opData) (hall : s.params.ackAll = false) (hroom : s.crq.length < s.params.crqDepth)
    (hne : body ≠ []) (hlen : s.dcount.toNat + body.length = s.hdrLen.toNat) :
    rxLine s body = { s with
      fsm := .rh, dcount := 0, lastOp := s.hdrOp, lastOpValid := true, acc := []
      crq := s.crq ++ [{ seq := s.hdrSeq, op := s.hdrOp, dest := s.hdrDest, payload := s.acc ++ body }] } := by
  induction body generalizing s with
  | nil => exact absurd rfl hne
  | cons b bs ih =>
    obtain ⟨hcount, hlast⟩ := dcount_succ hlen
    obtain ⟨-, hbyte⟩ := controlByteAccumulates { s with rxIn := [.byte b] } b [] ⟨hs.1, rfl⟩ hf ho (fun _ => hroom)
      (fun _ h => absurd (hall.symm.trans h) (by decide))
    rw [rxLine_cons, rxLine_byte hs hbyte, afterCtrlByte]
    by_cases hbs : bs = []
    · rw [if_pos (hlast.mpr (by rw [hbs]; rfl)), hbs, rxLine_nil]
      simp [hall, hs.2]
    · rw [if_neg (fun heq => hbs (List.eq_nil_of_length_eq_zero (hlast.mp heq)))]
      rw [ih (s := { s with rxIn := [], acc := s.acc ++ [b], dcount := s.dcount + 1 }) ⟨hs.1, rfl⟩ hf ho hall hroom hbs hcount]
      simp [hs.2]

/-- What is left of a data packet: the bytes de-stuffed, and the request at its end (R131, R133, R134, R136, R220, R221). -/
theorem rxLine_dataBody {s : State} {body : List Byte} (hs : Listening s) (hf : s.fsm = .rd)
    (ho : s.hdrOp = s.params.opData) (hack : s.ackq.length < s.params.ackqDepth)
    (hroom : s.dataOut.length + (destuffAll s.params.litSentinel s.ds body).2.length ≤ s.params.dataqDepth)
    (hne : body ≠ []) (hlen : s.dcount.toNat + body.length = s.hdrLen.toNat) :
    rxLine s body = { s with
      fsm := .rh, dcount := 0, lastOp := s.hdrOp, lastOpValid := true
      ds := (destuffAll s.params.litSentinel s.ds body).1
      dataOut := s.dataOut ++ (destuffAll s.params.litSentinel s.ds body).2
      ackq := s.ackq ++ [{ seq := s.hdrSeq, len := s.hdrLen }]
      anom := anomAfterRequest s } := by
  induction body generalizing s with
  | nil => exact absurd rfl hne
  | cons b bs ih =>
    obtain ⟨hcount, hlast⟩ := dcount_succ hlen
    rw [destuffAll, List.length_append] at hroom
    obtain ⟨hdata, hbyte⟩ := dataByteIsDestuffed { s with rxIn := [.byte b] } b []
      ⟨⟨hs.1, rfl⟩, hf, ho, rfl, fun _ => hack⟩ (by simp only; omega)
    rw [rxLine_cons, rxLine_byte hs (hbyte.trans hdata), afterDataByte]
    by_cases hbs : bs = []
    · rw [if_pos (hlast.mpr (by rw [hbs]; rfl)), hbs, rxLine_nil]
      simp [destuffAll, anomAfterRequest, hs.2]
    · rw [if_neg (fun heq => hbs (List.eq_nil_of_length_eq_zero (hlast.mp heq)))]
      rw [ih (s := { s with
        rxIn := [], ds := (destuff s.params.litSentinel s.ds b).1
        dataOut := s.dataOut ++ (destuff s.params.litSentinel s.ds b).2, dcount := s.dcount + 1 }) ⟨hs.1, rfl⟩ hf ho hack
        (by simp only [List.length_append]; omega) hbs hcount]
      simp [destuffAll, anomAfterRequest, hs.2]

/-! ### Packets with a payload -/

/-- A length that the field holds is not 0 where there is a payload (R83). -/
theorem length_ne_zero {body : List Byte} (hne : body ≠ []) (hfits : body.length ≤ 65535) :
    BitVec.ofNat 16 body.length ≠ 0 ∧ (BitVec.ofNat 16 body.length).toNat = body.length := by
  have hpos := List.length_pos_of_ne_nil hne
  have hlen : (BitVec.ofNat 16 body.length).toNat = body.length := by rw [BitVec.toNat_ofNat]; omega
  refine ⟨fun h0 => ?_, hlen⟩
  rw [h0] at hlen
  simp at hlen
  omega

/-- A header with a payload to come (R128). -/
theorem afterHeader_payload (s : State) (rsv : Byte) (seq : Word) (op dest : Byte) {len : Word} (h : len ≠ 0) :
    afterHeader s rsv seq op dest len = { afterBlock s rsv seq op dest len with fsm := .rd, dcount := 0, acc := [] } := by
  simp only [afterHeader, if_neg h]

theorem rxLine_ctrlPacket {s : State} (rsv : Byte) (seq : Word) (op dest : Byte) {body : List Byte} (hs : Waiting s)
    (hall : s.params.ackAll = false) (hop : op ≠ s.params.opData) (hne : body ≠ []) (hfits : body.length ≤ 65535)
    (hroom : s.dataOut.length + (withheld s.ds).length ≤ s.params.dataqDepth) (hcrq : s.crq.length < s.params.crqDepth) :
    rxLine s (wireBytes rsv seq op dest body) =
      { afterBlock s rsv seq op dest (BitVec.ofNat 16 body.length) with
        dcount := 0, acc := [], lastOp := op, lastOpValid := true
        crq := s.crq ++ [{ seq := seq, op := op, dest := dest, payload := body }] } := by
  obtain ⟨hlen0, hlen⟩ := length_ne_zero hne hfits
  rw [rxLine_wireBytes hs hroom, afterHeader_payload _ _ _ _ _ hlen0]
  refine (rxLine_ctrlBody (s := { afterBlock s rsv seq op dest (BitVec.ofNat 16 body.length) with
    fsm := .rd, dcount := 0, acc := [] }) hs.listening rfl hop hall hcrq hne ?_).trans rfl
  exact (Nat.zero_add _).trans hlen.symm

/-- Settles O23: the header, then the control payload. -/
theorem controlPacketIsPosted : Obligations.ControlPacketIsPosted := by
  unfold Obligations.ControlPacketIsPosted
  intro s rsv seq op dest body hs hall hop hne hfits hroom hcrq
  exact congrArg Host.Outcome.next (rxLine_ctrlPacket rsv seq op dest hs hall hop hne hfits hroom hcrq)

/-- Settles O24: an ACK packet is a control packet, as `OP_ACK` is not `OP_DATA` (R6). -/
theorem receivedAckIsPosted : Obligations.ReceivedAckIsPosted := by
  unfold Obligations.ReceivedAckIsPosted
  intro s seq rseq rlen hs hp hall hroom hcrq
  obtain ⟨hop, -⟩ := hp
  exact congrArg Host.Outcome.next (rxLine_ctrlPacket (body := ackBody rseq rlen) Config.hdrRsv seq s.params.opAck
    s.params.ackDest hs hall hop (by simp [ackBody]) (by simp [ackBody]) hroom hcrq)

theorem rxLine_dataPacket {s : State} (rsv : Byte) (seq : Word) (dest : Byte) {body : List Byte} (hs : Waiting s)
    (hne : body ≠ []) (hfits : body.length ≤ 65535)
    (hroom : s.dataOut.length + (withheld s.ds).length + (destuffAll s.params.litSentinel .normal body).2.length ≤
      s.params.dataqDepth)
    (hack : s.ackq.length < s.params.ackqDepth) :
    rxLine s (wireBytes rsv seq s.params.opData dest body) =
      { afterBlock s rsv seq s.params.opData dest (BitVec.ofNat 16 body.length) with
        dcount := 0, acc := [], lastOp := s.params.opData, lastOpValid := true
        ds := (destuffAll s.params.litSentinel .normal body).1
        dataOut := s.dataOut ++ withheld s.ds ++ (destuffAll s.params.litSentinel .normal body).2
        ackq := s.ackq ++ [{ seq := seq, len := BitVec.ofNat 16 body.length }]
        anom := anomAfterRequest (afterBlock s rsv seq s.params.opData dest (BitVec.ofNat 16 body.length)) } := by
  obtain ⟨hlen0, hlen⟩ := length_ne_zero hne hfits
  rw [rxLine_wireBytes hs (by omega), afterHeader_payload _ _ _ _ _ hlen0]
  refine (rxLine_dataBody (s := { afterBlock s rsv seq s.params.opData dest (BitVec.ofNat 16 body.length) with
    fsm := .rd, dcount := 0, acc := [] }) hs.listening rfl rfl hack ?_ hne ?_).trans rfl
  · simpa [afterBlock] using hroom
  · exact (Nat.zero_add _).trans hlen.symm

/-- Settles O25: the header, then the data payload. -/
theorem dataPacketIsDelivered : Obligations.DataPacketIsDelivered := by
  unfold Obligations.DataPacketIsDelivered
  intro s rsv seq dest body hs hne hfits hroom hack
  exact congrArg Host.Outcome.next (rxLine_dataPacket rsv seq dest hs hne hfits hroom hack)

end Sys2Proof.Machine
end

section
/-! SUPPORT and RESULTS. What the two sides do together: the ACK packet for a data packet (spec/43_ack_tracker.md section 3),
and the framing round trip (42_encoder.md section 5). -/

namespace Sys2Proof.Machine

/-! ### One ACK packet -/

/-- A byte releases no more than was withheld and itself (R161 to R166). -/
theorem destuff_length (sentinel : Byte) (d : Ds) (b : Byte) :
    (destuff sentinel d b).2.length + (withheld (destuff sentinel d b).1).length ≤ (withheld d).length + 1 := by
  cases d <;> simp only [destuff] <;> split <;> simp [withheld]

theorem destuffAll_length (sentinel : Byte) (d : Ds) (body : List Byte) :
    (destuffAll sentinel d body).2.length ≤ (withheld d).length + body.length := by
  induction body generalizing d with
  | nil => simp [destuffAll]
  | cons b bs ih =>
    have hbyte := destuff_length sentinel d b
    have hrest := ih (destuff sentinel d b).1
    rw [destuffAll, List.length_append, List.length_cons]
    omega

/-- Settles O41: the packet's one request, then the ACK packet made of it. -/
theorem oneAckPerDataPacket : Obligations.OneAckPerDataPacket := by
  unfold Obligations.OneAckPerDataPacket
  intro s rsv dest body hs hds hl hidle hbody hroom hack
  obtain ⟨hackq, hcur, htxq⟩ := hidle
  have houts : (destuffAll s.params.litSentinel .normal body).2.length ≤ 4 :=
    hbody ▸ (destuffAll_length s.params.litSentinel .normal body).trans (by simp [withheld])
  have hfits : s.dataOut.length + (withheld s.ds).length + (destuffAll s.params.litSentinel .normal body).2.length ≤
      s.params.dataqDepth := by
    rw [hds, withheld, List.length_nil]
    omega
  have hpkt := rxLine_dataPacket rsv 7 dest hs (List.ne_nil_of_length_pos (by omega)) (by omega) hfits
    (by rw [hackq]; exact hack)
  rw [hbody, hackq, List.nil_append] at hpkt
  refine ⟨_, _, congrArg Host.Outcome.next hpkt, exec_txStep_ack hl rfl, rfl, rfl, rfl, hcur, htxq⟩

/-! ### A run of data packets -/

/-- What data packets with these payloads deliver, and the de-stuffer's state after them: each flushes what was withheld and is
de-stuffed from Normal (R126, R131, R167). -/
def delivered (sentinel : Byte) : Ds → List (List Byte) → Ds × List Byte
  | d, [] => (d, [])
  | d, body :: bodies =>
    ((delivered sentinel (destuffAll sentinel .normal body).1 bodies).1,
      withheld d ++ (destuffAll sentinel .normal body).2 ++
        (delivered sentinel (destuffAll sentinel .normal body).1 bodies).2)

/-- The state between data packets, as far as the next one goes: `out` delivered and `n` requests since `s`. -/
structure Received (s t : State) (d : Ds) (out : List Byte) (n : Nat) : Prop where
  waiting : Waiting t
  params : t.params = s.params
  ds : t.ds = d
  dataOut : t.dataOut = s.dataOut ++ out
  ackq : t.ackq.length ≤ s.ackq.length + n

/-- One data packet of any length that fits the length field, the empty one among them. -/
theorem received_dataPacket {s : State} (hs : Waiting s) (seq : Word) (dest : Byte) {body : List Byte}
    (hfits : body.length ≤ 65535)
    (hroom : s.dataOut.length + (withheld s.ds).length + (destuffAll s.params.litSentinel .normal body).2.length ≤
      s.params.dataqDepth)
    (hack : s.ackq.length < s.params.ackqDepth) :
    Received s (rxLine s (packet seq s.params.opData dest body)) (destuffAll s.params.litSentinel .normal body).1
      (withheld s.ds ++ (destuffAll s.params.litSentinel .normal body).2) 1 := by
  by_cases hne : body = []
  · subst hne
    obtain ⟨-, hempty⟩ := emptyPacketIsLatched s Config.hdrRsv seq s.params.opData dest hs (by omega)
    have hline : rxLine s (packet seq s.params.opData dest []) = afterBlock s Config.hdrRsv seq s.params.opData dest 0 :=
      Host.Outcome.next.inj hempty
    rw [hline]
    exact ⟨⟨hs.1, hs.2.1, rfl, rfl⟩, rfl, rfl, by simp [afterBlock, destuffAll], Nat.le_succ _⟩
  · rw [packet, rxLine_dataPacket Config.hdrRsv seq dest hs hne hfits hroom hack]
    exact ⟨⟨hs.1, hs.2.1, rfl, rfl⟩, rfl, rfl, List.append_assoc .., by simp⟩

/-- Data packets one after the other. -/
theorem received_dataPackets {s : State} (hs : Waiting s) (dest : Byte) (ps : List (Word × List Byte))
    (hfits : ∀ q ∈ ps, q.2.length ≤ 65535)
    (hroom : s.dataOut.length + (delivered s.params.litSentinel s.ds (ps.map Prod.snd)).2.length ≤ s.params.dataqDepth)
    (hack : s.ackq.length + ps.length ≤ s.params.ackqDepth) :
    Received s (ps.foldl (fun u q => rxLine u (packet q.1 s.params.opData dest q.2)) s)
      (delivered s.params.litSentinel s.ds (ps.map Prod.snd)).1 (delivered s.params.litSentinel s.ds (ps.map Prod.snd)).2
      ps.length := by
  induction ps generalizing s with
  | nil => exact ⟨hs, rfl, rfl, (List.append_nil _).symm, le_rfl⟩
  | cons q qs ih =>
    obtain ⟨hq, hqs⟩ := List.forall_mem_cons.mp hfits
    rw [List.map_cons, delivered, List.length_append, List.length_append] at hroom
    rw [List.length_cons] at hack
    have hone := received_dataPacket hs q.1 dest hq (by omega) (by omega)
    have hrest := ih hone.waiting hqs
      (by rw [hone.params, hone.ds, hone.dataOut, List.length_append, List.length_append]; omega)
      (by have := hone.ackq; rw [hone.params]; omega)
    rw [hone.params, hone.ds] at hrest
    rw [List.foldl_cons, List.map_cons, delivered, List.length_cons]
    exact ⟨hrest.waiting, hrest.params.trans hone.params, hrest.ds,
      by rw [hrest.dataOut, hone.dataOut, List.append_assoc], by have := hone.ackq; have := hrest.ackq; omega⟩

/-! ### The chunks of a payload -/

/-- A chunk cut behind an unpaired marker leaves it withheld, and the next packet releases it: whatever the cuts, what is
delivered and what is still withheld are the payload (R167, R170). -/
theorem delivered_stuffFrom {sentinel : Byte} {limit : Nat} {chunk : List Byte} {unpaired : Bool}
    (hchunk : (destuffAll sentinel .normal chunk).1 = dsOf unpaired) (d : Ds) (p : List Byte) :
    (delivered sentinel d (stuffFrom sentinel limit chunk unpaired p).toList).1 =
      dsOf (endsUnpaired sentinel limit chunk unpaired p) ∧
    (delivered sentinel d (stuffFrom sentinel limit chunk unpaired p).toList).2 ++
      withheld (dsOf (endsUnpaired sentinel limit chunk unpaired p)) =
      withheld d ++ (destuffAll sentinel .normal chunk).2 ++ withheld (dsOf unpaired) ++ p := by
  induction p generalizing chunk unpaired d with
  | nil => simp [stuffFrom, Chunks.toList, delivered, endsUnpaired, hchunk]
  | cons b bs ih =>
    have hstep (u : Bool) := destuffAll_expansion sentinel u b
    rw [stuffFrom, endsUnpaired]
    split
    next hfull =>
      obtain ⟨hds, hout⟩ := hstep false
      obtain ⟨ihds, ihout⟩ := ih (chunk := expansion sentinel false b) hds (dsOf unpaired)
      rw [Chunks.toList_push, delivered, hchunk]
      refine ⟨ihds, ?_⟩
      have hbyte : (destuffAll sentinel .normal (expansion sentinel false b)).2 ++
          withheld (dsOf (stillUnpaired false b)) = [b] := hout
      rw [List.append_assoc, ihout]
      simp only [List.append_assoc]
      rw [← List.append_assoc _ (withheld (dsOf (stillUnpaired false b))) bs, hbyte, List.singleton_append]
    next hfits =>
      obtain ⟨hds, hout⟩ := hstep unpaired
      have happend := destuffAll_append sentinel .normal chunk (expansion sentinel unpaired b)
      rw [hchunk] at happend
      obtain ⟨ihds, ihout⟩ := ih (chunk := chunk ++ expansion sentinel unpaired b) (by rw [happend, hds]) d
      refine ⟨ihds, ?_⟩
      rw [ihout, happend]
      simp only [List.append_assoc]
      rw [← List.append_assoc _ (withheld (dsOf (stillUnpaired unpaired b))) bs, hout, List.append_assoc,
        List.singleton_append]

/-- Settles O42: the packets deliver the payload, but for the marker that `endsUnpaired` says is withheld. -/
theorem framingRoundTrip : Obligations.FramingRoundTrip := by
  unfold Obligations.FramingRoundTrip
  intro s p dest ps hp hs hds hps hroom hack
  have hchunks : ps.map Prod.snd = (stuffFrom s.params.litSentinel s.params.maxPayload [] false p).toList := by
    rw [hps, packetize, if_pos rfl, stuffChunks]
  have hfits : ∀ q ∈ ps, q.2.length ≤ 65535 := by
    intro q hq
    have hbody := packetize_fits hp s.params.opData p q.2 (hps ▸ List.mem_map_of_mem hq)
    obtain ⟨-, -, -, -, hmax, -⟩ := hp
    unfold Params.maxPayload Config.hdrLen at hbody
    omega
  obtain ⟨hend, hall⟩ := delivered_stuffFrom (sentinel := s.params.litSentinel) (limit := s.params.maxPayload) (chunk := [])
    (unpaired := false) rfl .normal p
  rw [← hchunks] at hend hall
  have hout : (delivered s.params.litSentinel .normal (ps.map Prod.snd)).2 ++
      withheld (dsOf (endsUnpaired s.params.litSentinel s.params.maxPayload [] false p)) = p := hall
  have hlen := congrArg List.length hout
  rw [List.length_append] at hlen
  have hrec := received_dataPackets hs dest ps hfits (by rw [hds]; omega) hack
  rw [hds, hend] at hrec
  refine ⟨_, rfl, hrec.waiting, ?_⟩
  rw [hrec.ds, hrec.dataOut]
  split
  next hun =>
    rw [hun] at hout
    exact ⟨by rw [hun]; rfl, by rw [List.append_assoc]; exact congrArg (s.dataOut ++ ·) hout⟩
  next hun =>
    rw [Bool.not_eq_true] at hun
    rw [hun] at hout
    exact ⟨by rw [hun]; rfl, congrArg (s.dataOut ++ ·) ((List.append_nil _).symm.trans hout)⟩

end Sys2Proof.Machine
end
